-- ==== Sys2Proof/Word.lean ====
section
/-! DEFINITION. The word types of the core: a byte of a stream (R11) and a word of the register port (R37). -/

namespace Sys2Proof

/-- One byte, bits 7 down to 0 (R11). -/
abbrev Byte := BitVec 8

/-- One word of the register port; the port moves whole 64-bit words (R37). -/
abbrev Word := BitVec 64

end Sys2Proof
end

