-- ==== Sys2Proof/Config.lean ====
section
/-! DEFINITION. The parameters of a build (R9): CHUNK_SIZE, CNT_W and PAYLOAD_OFFSET, with the defaults of R9. -/

namespace Sys2Proof

/-- Which PAYLOAD_OFFSET the build has (R9, R151): the default function of R149, or a replacement of which
only the requirements of R151 are known. -/
inductive PayloadRule where
  | standard
  | replacement
deriving DecidableEq, Repr

/-- The default of CHUNK_SIZE, the nominal ETI-NA frame size (R9). -/
abbrev chunkSizeDefault : Nat := 6144

/-- The parameters of R9, fixed for a machine.  A claim quantifies over them (R17), so they stand in State as
plain data that no step changes (log entries 9 and 10). -/
structure Params where
  /-- CHUNK_SIZE: bytes per ETI-NA output chunk, at least 187 (R9, R214). -/
  chunkSize : Nat := chunkSizeDefault
  /-- CNT_W: width of every counter in bits (R9, R45). -/
  cntW : Nat := 64
  /-- PAYLOAD_OFFSET (R9, R149, R151). -/
  payload : PayloadRule := .standard
deriving DecidableEq, Repr

/-- FREE VALUE (log entry 9).  How far past the header boundary a replacement PAYLOAD_OFFSET puts the payload,
as a function of the packet bytes alone (R151).  It has no body: nothing can be proved of its value. -/
opaque Config.replacementOffset : List Byte → Nat

end Sys2Proof
end

