-- ==== Sys2Proof/Syntax.lean ====
section
/-! DEFINITION. The operations of the core as syntax: one constructor per row of `opcode_table.json` (R110). -/

namespace Sys2Proof

/-- The two output modes (R33, D11): ETI-NA = 0, ETI-NI = 1. -/
inductive Mode where
  | na
  | ni
deriving DecidableEq, Repr

/-- The states of the run (R26). -/
inductive Fsm where
  | idle
  | awaitingSync
  | streaming
  | halted
deriving DecidableEq, Repr

/-- The causes `terminate` is called with (R219, R232). -/
inductive CleanCause where
  | endOfStream
  | shortRead
  | readError
deriving DecidableEq, Repr

/-- A TS packet: its bytes in arrival order, 188 of them when well formed (R90). -/
abbrev Packet := List Byte

/-- The 23 operations of R110.  The operands are those each rule names: the written word or the address of a
host access, the data byte of a symbol, the header word of a full window, the packet, the span, the cause. -/
inductive Instr where
  /-- HOST.RESET (R121). -/
  | hostReset
  /-- HOST.START (R123). -/
  | hostStart
  /-- HOST.CFGWR.PID (R122): `wdata`. -/
  | hostCfgwrPid (wdata : Word)
  /-- HOST.CFGWR.OFFSET (R126): `wdata`. -/
  | hostCfgwrOffset (wdata : Word)
  /-- HOST.CFGWR.CTRL (R127): `wdata`. -/
  | hostCfgwrCtrl (wdata : Word)
  /-- HOST.RD (R128): `addr`. -/
  | hostRd (addr : BitVec 8)
  /-- SRC.BYTE (R161): the byte of the symbol. -/
  | srcByte (b : Byte)
  /-- SRC.EOS (R166). -/
  | srcEos
  /-- SRC.ERR (R167). -/
  | srcErr
  /-- WIN.VALID (R163): the header word H of the full window. -/
  | winValid (h : BitVec 32)
  /-- WIN.INVALID (R164): the word H of the full window. -/
  | winInvalid (h : BitVec 32)
  /-- PKT.DROP (R182): the packet. -/
  | pktDrop (p : Packet)
  /-- PKT.SKIP (R185): the packet. -/
  | pktSkip (p : Packet)
  /-- PKT.FWD_TEI (R188): the packet. -/
  | pktFwdTei (p : Packet)
  /-- PKT.FWD_POS (R189): the packet. -/
  | pktFwdPos (p : Packet)
  /-- PKT.FWD_NEG (R190): the packet. -/
  | pktFwdNeg (p : Packet)
  /-- PKT.BOUNDS (R193): the packet. -/
  | pktBounds (p : Packet)
  /-- FRM.NA_APPEND (R212): the span. -/
  | frmNaAppend (span : List Byte)
  /-- FRM.NA_FLUSH (R213). -/
  | frmNaFlush
  /-- FRM.NI_WRITE (R217): the span. -/
  | frmNiWrite (span : List Byte)
  /-- FRM.FINAL (R219): the cause. -/
  | frmFinal (cause : CleanCause)
  /-- SNK.OK (R66). -/
  | snkOk
  /-- SNK.FAIL (R66). -/
  | snkFail
deriving DecidableEq, Repr

end Sys2Proof
end

