-- ==== Sys2Proof/Machine/Packet.lean ====
section
/-! DEFINITION. The constants of R9, each under one name so that one edit corrects it (R10), and the TS packet model: the
header's bit positions in one place (R91, R92) and the accessors of `41_packet_model.md`. -/

namespace Sys2Proof

/-- TS_SIZE: bytes in one TS packet (R9). -/
abbrev tsSize : Nat := 188

/-- SYNC: the sync marker (R9). -/
def syncMarker : Byte := 0x47

/-- HDR: the header size in bytes, the header boundary (R9, R148). -/
abbrev hdrSize : Nat := 4

/-- A packet identifier: 13 bits (R10, R144). -/
abbrev Pid := BitVec 13

/-- A continuity counter: 4 bits, so that its arithmetic is modulo 16 (R10, R145, R186). -/
abbrev Cc := BitVec 4

/-- PID_MAX (R9). -/
abbrev pidMax : Int := 8191

/-- PID_DEFAULT (R9). -/
def pidDefault : BitVec 16 := 0x0426

/-- OFS_DEFAULT_NA (R9). -/
abbrev ofsDefaultNa : Int := 12

/-- OFS_NI (R9). -/
abbrev ofsNi : Int := 4

/-- OFS_MIN (R9; the open interval of `90_conflicts.md` C1). -/
abbrev ofsMin : Int := -3

/-- OFS_MAX (R9; `90_conflicts.md` C1). -/
abbrev ofsMax : Int := 183

/-- SPAN_MAX = 188 - 1 (R9, R196). -/
abbrev spanMax : Nat := tsSize - 1

/-- The parameters a build may have: CHUNK_SIZE at least SPAN_MAX = 187 (R9, R214); a counter fits the register port's
64-bit word (log entry 10). -/
abbrev Params.ok (p : Params) : Prop := spanMax ≤ p.chunkSize ∧ 1 ≤ p.cntW ∧ p.cntW ≤ 64

/-- BUF_CAP = CHUNK_SIZE - 1 + SPAN_MAX, which is CHUNK_SIZE + 186: the capacity of the chunk buffer (R9, R40, R215). -/
def Params.bufCap (p : Params) : Nat := p.chunkSize + (spanMax - 1)

/-- Byte `i` of a packet (R90). -/
def Packet.byte (p : Packet) (i : Nat) : Byte := p.getD i 0

/-- The header word H = P[0] ++ P[1] ++ P[2] ++ P[3] (R91). -/
def Packet.header (p : Packet) : BitVec 32 := p.byte 0 ++ p.byte 1 ++ p.byte 2 ++ p.byte 3

/-- The sync field H[31:24] of a header word is the marker (R91, R163). -/
def headerSync (h : BitVec 32) : Bool := h.extractLsb' 24 8 == syncMarker

/-- `sync_ok(P)` (R141). -/
def Packet.syncOk (p : Packet) : Bool := p.byte 0 == syncMarker

/-- `transport_error(P) = P[1][7]` (R142, R91). -/
def Packet.transportError (p : Packet) : Bool := (p.byte 1).getLsbD 7

/-- `unit_start(P) = P[1][6]` (R143, R91). -/
def Packet.unitStart (p : Packet) : Bool := (p.byte 1).getLsbD 6

/-- `pid(P) = P[1][4:0] * 256 + P[2]` (R144, R95, big-endian by R71). -/
def Packet.pid (p : Packet) : Pid := (p.byte 1).extractLsb' 0 5 ++ p.byte 2

/-- `continuity_counter(P) = P[3][3:0]` (R145). -/
def Packet.continuityCounter (p : Packet) : Cc := (p.byte 3).extractLsb' 0 4

/-- `afc(P) = P[3][5:4]` (R146). -/
def Packet.afc (p : Packet) : BitVec 2 := (p.byte 3).extractLsb' 4 2

/-- `has_payload(P) = afc[0]` (R146). -/
def Packet.hasPayload (p : Packet) : Bool := p.afc.getLsbD 0

/-- `has_adaptation(P) = afc[1]` (R146). -/
def Packet.hasAdaptation (p : Packet) : Bool := p.afc.getLsbD 1

/-- `afl(P) = P[4]`, unsigned (R147). -/
def Packet.afl (p : Packet) : Nat := (p.byte 4).toNat

/-- A qualifying packet: `unit_start` set and `transport_error` clear (R15, R183). -/
def Packet.qualifies (p : Packet) : Bool := p.unitStart && !p.transportError

/-- The default PAYLOAD_OFFSET, the three lines of R149. -/
def Packet.standardOffset (p : Packet) : Nat :=
  if p.hasPayload = false then tsSize
  else if p.hasAdaptation = false then hdrSize
  else hdrSize + 1 + p.afl

/-- A replacement PAYLOAD_OFFSET, of which R151 lets a model assume only: it is a function of the packet bytes,
it is at least 4, and it is 4 when `afc(P)` = 1. -/
def Packet.replacedOffset (p : Packet) : Nat :=
  if p.afc = 1 then hdrSize else hdrSize + Config.replacementOffset p

/-- `payload_offset(P)` under the build's parameter (R9, R149, R151). -/
def Packet.payloadOffset (k : Params) (p : Packet) : Nat :=
  match k.payload with
  | .standard => p.standardOffset
  | .replacement => p.replacedOffset

/-- `parse` (R140): a packet exactly when the 188 bytes begin with the sync marker, `none` for Invalid. -/
def parse (bytes : List Byte) : Option Packet :=
  if bytes.length = tsSize ∧ Packet.syncOk bytes then some bytes else none

end Sys2Proof
end

