-- ==== Sys2Proof/WellFormed.lean ====
section
/-! DEFINITION. Which terms of Instr are operations the encodings can express: the operand ranges the rules give. -/

namespace Sys2Proof

/-- A valid packet as every `PKT.*` row takes it: 188 bytes (R90) that begin with the sync marker (R140). -/
def Packet.valid (p : Packet) : Bool := (parse p).isSome

/-- The operand checks of the operation map (R110, R113) and of the rules' operand lines.
WIN.VALID and WIN.INVALID: H[31:24] is, is not, 0x47.  PKT.SKIP: not (`pusi` = 1 and `tei` = 0).
PKT.FWD_TEI: `tei` = 1.  PKT.FWD_POS, PKT.FWD_NEG, PKT.BOUNDS: `tei` = 0.
FRM.NA_APPEND: a span of 0 to 187 bytes (R212).  FRM.NI_WRITE: 0 to 184 bytes (R217). -/
def Instr.wellFormed : Instr → Bool
  | .hostReset => true
  | .hostStart => true
  | .hostCfgwrPid _ => true
  | .hostCfgwrOffset _ => true
  | .hostCfgwrCtrl _ => true
  | .hostRd _ => true
  | .srcByte _ => true
  | .srcEos => true
  | .srcErr => true
  | .winValid h => headerSync h
  | .winInvalid h => !headerSync h
  | .pktDrop p => p.valid
  | .pktSkip p => p.valid && !p.qualifies
  | .pktFwdTei p => p.valid && p.transportError
  | .pktFwdPos p => p.valid && !p.transportError
  | .pktFwdNeg p => p.valid && !p.transportError
  | .pktBounds p => p.valid && !p.transportError
  | .frmNaAppend span => decide (span.length ≤ spanMax)
  | .frmNaFlush => true
  | .frmNiWrite span => decide (span.length ≤ tsSize - hdrSize)
  | .frmFinal _ => true
  | .snkOk => true
  | .snkFail => true

end Sys2Proof
end

