-- ==== Sys2Proof/Decode.lean ====
section
/-! DEFINITION. From what stands at a port, in a full window or at an internal call to the operation it selects (R110 to
R113), total and rejecting by name; then the encoder, and the words of `opcode_table.json`. -/

namespace Sys2Proof

/-- A call inside the core that selects a framer operation; "invoked by the operations before it and has no encoding
of its own" (R110). -/
inductive FramerCall where
  /-- `absorb(span)` (R195, R211). -/
  | absorb (span : List Byte)
  /-- The body of R212's loop. -/
  | flush
  /-- `terminate(cause)` (R166, R167, R219). -/
  | terminate (cause : CleanCause)
deriving DecidableEq, Repr

/-- What selects an operation, one constructor per format of R110. -/
inductive PortWord where
  /-- `rst` asserted (R60, R121). -/
  | rst
  /-- REG: a host access (R100). -/
  | reg (we : Bool) (addr : BitVec 8) (wdata : Word)
  /-- SYM: `kind[1:0] ++ data[7:0]` (R99). -/
  | sym (w : BitVec 10)
  /-- TSH: the header word of a full window (R91). -/
  | tsh (h : BitVec 32)
  /-- TSP: a packet the Synchronizer yielded (R90, R180). -/
  | tsp (p : Packet)
  /-- internal (R110). -/
  | frm (c : FramerCall)
  /-- RSP: the sink's response (R101). -/
  | rsp (w : BitVec 1)
deriving DecidableEq, Repr

/-- Why a word selects no operation. -/
inductive DecodeError where
  /-- A write to CTRL with neither command bit set, to a read-only register or to an unmapped address (R36, R37). -/
  | noEffectWrite
  /-- Source symbol kind 3 (R62, R99, R107). -/
  | reservedSymbol
  /-- Bytes that are no valid packet (R140). -/
  | notAPacket
deriving DecidableEq, Repr

/-- What a `PKT.*` or framer class needs beyond the packet (R112): the selector, FSM and the build's parameters. -/
structure ClassCtx where
  params : Params
  selPid : Pid
  selOffset : BitVec 9
  selMode : Mode
  fsm : Fsm
deriving DecidableEq, Repr

/-- `selected(P)` (R181). -/
def ClassCtx.selects (c : ClassCtx) (p : Packet) : Bool :=
  (decide (0 ≤ c.selOffset.toInt) && p.pid == c.selPid) || decide (c.selOffset.toInt < 0)

/-- The gate is closed (R183). -/
def ClassCtx.gateClosed (c : ClassCtx) : Bool := c.selMode == .ni && c.fsm == .awaitingSync

/-- The payload start of the positive-offset path, `payload_offset(P) + SEL_OFFSET` (R189). -/
def ClassCtx.posStart (c : ClassCtx) (p : Packet) : Int := (p.payloadOffset c.params : Int) + c.selOffset.toInt

/-- The class of a valid packet, tested in the order of R111. -/
def classify (c : ClassCtx) (p : Packet) : Instr :=
  if c.selects p = false then .pktDrop p
  else if c.gateClosed && !p.qualifies then .pktSkip p
  else if p.transportError then .pktFwdTei p
  else if c.selOffset.toInt < 0 then .pktFwdNeg p
  else if c.posStart p ≤ tsSize then .pktFwdPos p
  else .pktBounds p

/-- A host access (R36, R37, R100, R113): RESET wins over START in the same write. -/
def decodeReg (we : Bool) (addr : BitVec 8) (wdata : Word) : Except DecodeError Instr :=
  if we = false then .ok (.hostRd addr)
  else if addr = 0x00 then
    if wdata.getLsbD 1 then .ok .hostReset
    else if wdata.getLsbD 0 then .ok .hostStart
    else .error .noEffectWrite
  else if addr = 0x08 then .ok (.hostCfgwrPid wdata)
  else if addr = 0x10 then .ok (.hostCfgwrOffset wdata)
  else if addr = 0x18 then .ok (.hostCfgwrCtrl wdata)
  else .error .noEffectWrite

/-- A source symbol (R62, R99). -/
def decodeSym (w : BitVec 10) : Except DecodeError Instr :=
  if w.extractLsb' 8 2 = 0 then .ok (.srcByte (w.extractLsb' 0 8))
  else if w.extractLsb' 8 2 = 1 then .ok .srcEos
  else if w.extractLsb' 8 2 = 2 then .ok .srcErr
  else .error .reservedSymbol

/-- `evaluate_window()` looks at the sync field alone (R104, R111, R162). -/
def decodeWindow (h : BitVec 32) : Instr :=
  if headerSync h then .winValid h else .winInvalid h

/-- The framer operation a call selects (R211, R212, R219). -/
def decodeFramer (mode : Mode) : FramerCall → Instr
  | .absorb span =>
    match mode with
    | .na => .frmNaAppend span
    | .ni => .frmNiWrite span
  | .flush => .frmNaFlush
  | .terminate cause => .frmFinal cause

/-- The operation a response selects (R101). -/
def decodeRsp (w : BitVec 1) : Instr := if w = 0 then .snkOk else .snkFail

/-- The decoder: total on every word of every format, rejecting by name. -/
def decode (c : ClassCtx) : PortWord → Except DecodeError Instr
  | .rst => .ok .hostReset
  | .reg we addr wdata => decodeReg we addr wdata
  | .sym w => decodeSym w
  | .tsh h => .ok (decodeWindow h)
  | .tsp p => if p.valid then .ok (classify c p) else .error .notAPacket
  | .frm call => .ok (decodeFramer c.selMode call)
  | .rsp w => .ok (decodeRsp w)

/-! ## The encoder -/

/-- The word of each operation, written from R91, R99, R100, R101 and R113. -/
def encode : Instr → PortWord
  | .hostReset => .reg true 0x00 2
  | .hostStart => .reg true 0x00 1
  | .hostCfgwrPid wdata => .reg true 0x08 wdata
  | .hostCfgwrOffset wdata => .reg true 0x10 wdata
  | .hostCfgwrCtrl wdata => .reg true 0x18 wdata
  | .hostRd addr => .reg false addr 0
  | .srcByte b => .sym (0#2 ++ b)
  | .srcEos => .sym 0x100
  | .srcErr => .sym 0x200
  | .winValid h => .tsh h
  | .winInvalid h => .tsh h
  | .pktDrop p => .tsp p
  | .pktSkip p => .tsp p
  | .pktFwdTei p => .tsp p
  | .pktFwdPos p => .tsp p
  | .pktFwdNeg p => .tsp p
  | .pktBounds p => .tsp p
  | .frmNaAppend span => .frm (.absorb span)
  | .frmNaFlush => .frm .flush
  | .frmNiWrite span => .frm (.absorb span)
  | .frmFinal cause => .frm (.terminate cause)
  | .snkOk => .rsp 0
  | .snkFail => .rsp 1

/-- The column "selected by" of R110, condition by condition, for the rows whose word alone does not select them:
the `PKT.*` rows by the selector, FSM and header, the append and the ETI-NI write by the mode. -/
def Instr.selectedBy (c : ClassCtx) : Instr → Prop
  | .pktDrop p => ¬ (c.selects p = true)
  | .pktSkip p => c.selects p = true ∧ c.selMode = .ni ∧ c.fsm = .awaitingSync ∧ ¬ (p.unitStart = true ∧ p.transportError = false)
  | .pktFwdTei p => c.selects p = true ∧ ¬ (c.selMode = .ni ∧ c.fsm = .awaitingSync) ∧ p.transportError = true
  | .pktFwdPos p =>
    c.selects p = true ∧ (c.selMode = .ni → c.fsm = .awaitingSync → p.unitStart = true) ∧ p.transportError = false ∧
      0 ≤ c.selOffset.toInt ∧ (p.payloadOffset c.params : Int) + c.selOffset.toInt ≤ tsSize
  | .pktFwdNeg p =>
    c.selects p = true ∧ (c.selMode = .ni → c.fsm = .awaitingSync → p.unitStart = true) ∧ p.transportError = false ∧
      c.selOffset.toInt < 0
  | .pktBounds p =>
    c.selects p = true ∧ (c.selMode = .ni → c.fsm = .awaitingSync → p.unitStart = true) ∧ p.transportError = false ∧
      0 ≤ c.selOffset.toInt ∧ tsSize < (p.payloadOffset c.params : Int) + c.selOffset.toInt
  | .frmNaAppend _ => c.selMode = .na
  | .frmNiWrite _ => c.selMode = .ni
  | .hostReset => True
  | .hostStart => True
  | .hostCfgwrPid _ => True
  | .hostCfgwrOffset _ => True
  | .hostCfgwrCtrl _ => True
  | .hostRd _ => True
  | .srcByte _ => True
  | .srcEos => True
  | .srcErr => True
  | .winValid _ => True
  | .winInvalid _ => True
  | .frmNaFlush => True
  | .frmFinal _ => True
  | .snkOk => True
  | .snkFail => True

/-! ## The words of `opcode_table.json` -/

/-- The REG word of R113 with the rest of `wdata` above it: bit 10 `we`, bits 9:2 `addr`, bits 1:0 `wdata[1:0]`, then
`wdata[63:2]` from bit 11 on. -/
def tableReg (w : Nat) : PortWord :=
  .reg (w.testBit 10) (BitVec.ofNat 8 (w >>> 2)) (BitVec.ofNat 64 (w % 4 + 4 * (w >>> 11)))

/-- The word a table number of `nbits` bits stands for.  One byte holds RSP (1 bit), two bytes REG (11 bits) or SYM (10
bits), four bytes TSH (32 bits).  Two-byte words with bit 10 clear are both SYM words and REG reads: they are taken as SYM
for kinds 0 to 2 and as a read for kind 3, which SYM reserves (log entry 8).  No bits are no word: the internal rows
have no encoding (R113). -/
def tablePortWord (nbits w : Nat) : Option PortWord :=
  if nbits = 0 then none
  else if nbits ≤ 8 then (if w < 2 then some (.rsp (BitVec.ofNat 1 w)) else none)
  else if nbits ≤ 16 then
    if 2048 ≤ w then none
    else if w < 0x300 then some (.sym (BitVec.ofNat 10 w))
    else some (tableReg w)
  else if nbits ≤ 32 then (if w < 2 ^ 32 then some (.tsh (BitVec.ofNat 32 w)) else none)
  else none

/-- The context used for a table word; the formats of `tablePortWord` do not consult it. -/
def tableCtx : ClassCtx := ⟨{}, pidDefault.setWidth _, .ofInt 9 ofsDefaultNa, .na, .streaming⟩

/-- What the decoder gives for a table word (the host's check). -/
def decodeTableWord (nbits w : Nat) : Option Instr :=
  match tablePortWord nbits w with
  | none => none
  | some pw =>
    match decode tableCtx pw with
    | .ok i => some i
    | .error _ => none

end Sys2Proof
end

