-- ==== Sys2Proof/Machine/State.lean ====
section
/-! DEFINITION. The state of the machine as plain data: the whole of R20 group by group, the place reached inside an
operation, the inputs still to come and the port transfers made; State.reset; the reasons a step can stop. -/

namespace Sys2Proof.Machine

/-- A byte-addressed space as pairs of address and byte, addresses rising, no entry equal to what an unlisted address
reads as (`Memory.wf` in Machine/Ops.lean). -/
abbrev Memory := List Host.Cell

/-- The two byte-addressed spaces of the core (R13, R41). -/
inductive Space where
  /-- The packet window, addresses 0 to 187. -/
  | win
  /-- The chunk buffer, addresses 0 to BUF_CAP - 1. -/
  | buf
deriving DecidableEq, Repr

/-- `HALT_CAUSE` (R27); code 7 is never produced and has no constructor. -/
inductive HaltCause where
  | none
  | cfgError
  | endOfStream
  | shortRead
  | readError
  | bounds
  | writeFail
deriving DecidableEq, Repr

/-- The kinds of diagnostic event (R102, R233); kind 3 is never produced and has no constructor. -/
inductive EventKind where
  | syncLoss
  | ccDisc
  | tei
deriving DecidableEq, Repr

/-- A sink response (R66, R101). -/
inductive Response where
  | ok
  | fail
deriving DecidableEq, Repr

/-- Group "synchronizer" of R20. -/
structure SyncState where
  /-- WIN[0..187] (R21). -/
  win : Memory
  /-- FILL, 0 to 188 (R22). -/
  fill : Nat
  /-- RESYNC (R23). -/
  resync : Bool
  /-- SRC_POS, modulo 2^CNT_W (R25). -/
  srcPos : Nat
deriving DecidableEq, Repr

/-- Group "framer" of R20. -/
structure FramerState where
  /-- FSM (R26). -/
  fsm : Fsm
  /-- BUF[0..BUF_CAP-1] (R39). -/
  buf : Memory
  /-- BUF_LEN, 0 to BUF_CAP (R39, R40). -/
  bufLen : Nat
deriving DecidableEq, Repr

/-- Group "status" of R20. -/
structure StatusState where
  /-- HALT_CAUSE (R27). -/
  haltCause : HaltCause
  /-- CFG_ERR bit 0 (R28). -/
  pidRange : Bool
  /-- CFG_ERR bit 1 (R28). -/
  ofsRange : Bool
  /-- CFG_ERR bit 2 (R28). -/
  modeOfs : Bool
deriving DecidableEq, Repr

/-- Group "extractor" of R20: the continuity cell (R29). -/
structure ExtractorState where
  lastCcValid : Bool
  lastCc : Cc
deriving DecidableEq, Repr

/-- Group "diagnostics" of R20: the sticky flags (R30). -/
structure DiagState where
  evSyncLoss : Bool
  evCcDisc : Bool
  evTei : Bool
deriving DecidableEq, Repr

/-- Group "configuration" of R20 (R31, R32, R33). -/
structure CfgState where
  pid : BitVec 16
  offset : BitVec 16
  mode : Mode
  ofsExpl : Bool
deriving DecidableEq, Repr

/-- Group "selector" of R20 (R34). -/
structure SelState where
  pid : Pid
  offset : BitVec 9
  mode : Mode
deriving DecidableEq, Repr

/-- Group "counters" of R20 (R45), each modulo 2^CNT_W. -/
structure CounterState where
  pktRead : Nat
  pktFwd : Nat
  wr : Nat
  syncLoss : Nat
  ccDisc : Nat
  tei : Nat
deriving DecidableEq, Repr

/-- The rule that called `SinkWrite` and waits for the answer (R66): R213, R217 or R219 with its cause. -/
inductive Caller where
  | naFlush
  | niWrite
  | final (cause : CleanCause)
deriving DecidableEq, Repr

/-- The place the core has reached inside the operation under way; `idle` between top-level operations (R14).  Each
constructor is one call of the rules that is due (log entry 3). -/
inductive Phase where
  /-- No operation under way: the core waits for a host input or a source symbol (R83, R264). -/
  | idle
  /-- `evaluate_window()` is due (R162). -/
  | window
  /-- `extract(P)` is due (R163, R180). -/
  | packet (p : Packet)
  /-- `absorb(span)` is due (R195, R211). -/
  | absorb (span : List Byte)
  /-- The body of R212's loop is due: BUF_LEN is at least CHUNK_SIZE. -/
  | drain
  /-- `terminate(cause)` is due (R219). -/
  | final (cause : CleanCause)
  /-- A write transaction with these bytes is outstanding (R66). -/
  | sink (caller : Caller) (bytes : List Byte)
deriving DecidableEq, Repr

/-- What the host does next (R60): assert `rst`, or make one register access. -/
inductive HostInput where
  | rst
  | access (we : Bool) (addr : BitVec 8) (wdata : Word)
deriving DecidableEq, Repr

/-- Who moves next between two operations (R14, R244; log entry 5). -/
inductive Agent where
  | host
  | source
deriving DecidableEq, Repr

/-- The inputs still to come (R17, R43; log entry 4). -/
structure Env where
  host : List HostInput
  /-- Symbols the source still offers, as SYM words (R61, R99). -/
  source : List (BitVec 10)
  /-- Answers the sink has still to give, as RSP words (R66, R101). -/
  answers : List (BitVec 1)
  turns : List Agent
deriving DecidableEq, Repr

/-- One port transfer (R60, R77): the trace of these, oldest first, is the observation of R18 (log entry 13). -/
inductive Transfer where
  | rst
  | regWrite (addr : BitVec 8) (wdata : Word)
  | regRead (addr : BitVec 8) (rdata : Word)
  /-- A source symbol consumed (R62). -/
  | source (w : BitVec 10)
  /-- One emission on the event port (R102, R240). -/
  | event (kind : EventKind) (info : BitVec 8)
  /-- One write transaction with its response (R66). -/
  | sink (bytes : List Byte) (resp : Response)
deriving DecidableEq, Repr

/-- The observation of a run (R18): (a) the write transactions with their bytes and responses, (b) the diagnostic events,
(c) the number of source symbols consumed, (d) FSM, HALT_CAUSE, CFG_ERR and the counters of R45. -/
structure Observation where
  transactions : List (List Byte × Response)
  events : List (EventKind × BitVec 8)
  consumed : Nat
  fsm : Fsm
  status : StatusState
  counters : CounterState
  srcPos : Nat
deriving DecidableEq, Repr

/-- The state of the machine. -/
structure State where
  params : Params
  sync : SyncState
  framer : FramerState
  status : StatusState
  extractor : ExtractorState
  diag : DiagState
  cfg : CfgState
  sel : SelState
  counters : CounterState
  phase : Phase
  env : Env
  trace : List Transfer
deriving DecidableEq, Repr

/-- The machine right after reset (R44, R270): every element of R20 at its reset value, nothing under way, no input
queued, no transfer made, the parameters of R9 at their defaults.  The contents of WIN and BUF (no cell listed) and
LAST_CC are the model's choice (log entries 1 and 2). -/
def State.reset : State where
  params := {}
  sync := { win := [], fill := 0, resync := false, srcPos := 0 }
  framer := { fsm := .idle, buf := [], bufLen := 0 }
  status := { haltCause := .none, pidRange := false, ofsRange := false, modeOfs := false }
  extractor := { lastCcValid := false, lastCc := 0 }
  diag := { evSyncLoss := false, evCcDisc := false, evTei := false }
  cfg := { pid := pidDefault, offset := .ofInt 16 ofsDefaultNa, mode := .na, ofsExpl := false }
  sel := { pid := pidDefault.setWidth _, offset := .ofInt 9 ofsDefaultNa, mode := .na }
  counters := { pktRead := 0, pktFwd := 0, wr := 0, syncLoss := 0, ccDisc := 0, tei := 0 }
  phase := .idle
  env := { host := [], source := [], answers := [], turns := [] }
  trace := []

/-- The reasons the machine stops with a fault.  None is a condition of the spec (log entry 12): each guards a place that
no state of `Safety.lean`'s invariant reaches. -/
inductive Fault where
  /-- Raised by SRC.BYTE when FILL is not below 188, so that WIN[FILL] does not exist (R21, R41). Safe. -/
  | windowOverrun
  /-- Raised by FRM.NA_APPEND when the span does not fit below BUF_CAP (R41, R215), and by FRM.NA_FLUSH, FRM.FINAL and
  SNK.OK when they read BUF at or above BUF_CAP. Safe. -/
  | bufferOverrun
  /-- Raised by SNK.OK and SNK.FAIL when no write transaction is outstanding (R66, R273). Safe. -/
  | noTransaction
  /-- Raised by the step when `extract` is due on bytes that are no valid packet (R140). Safe. -/
  | notAPacket
deriving DecidableEq, Repr

/-- The reasons the machine gives no meaning. -/
inductive Refusal where
  /-- Raised by exec for an instruction that has no meaning yet; no arm of exec does. Safe. -/
  | notModelled (mnemonic : String)
  /-- Raised by the step when the core, reading, is offered source symbol kind 3: "a model refuses a run in which it
  appears" (R62, U6; log entry 11). Safe. -/
  | reservedSymbol
deriving DecidableEq, Repr

end Sys2Proof.Machine
end

