-- ==== Sys2Proof/Machine/Ops.lean ====
section
/-! DEFINITION. The shared operations of R13 over State: memory, counters, events, the two ways into HALTED, the sink
transaction, the trace, and the output levels of R60. -/

namespace Sys2Proof.Machine

abbrev Result := Host.Outcome State Fault Refusal

/-! ## Byte-addressed spaces -/

/-- What an address no rule has written reads as (log entry 1). -/
def unwritten : Byte := 0x00

/-- The byte at an address. -/
def Memory.read : Memory → Nat → Byte
  | [], _ => unwritten
  | (k, v) :: m, a => if k = a then v else Memory.read m a

/-- Write one byte, keeping the canonical form. -/
def Memory.write : Memory → Nat → Byte → Memory
  | [], a, b => if b = unwritten then [] else [(a, b)]
  | (k, v) :: m, a, b =>
    if k < a then (k, v) :: Memory.write m a b
    else if k = a then (if b = unwritten then m else (a, b) :: m)
    else (if b = unwritten then (k, v) :: m else (a, b) :: (k, v) :: m)

/-- `n` bytes from `a` on, in ascending address order (R13, MemRead). -/
def Memory.readN (m : Memory) (a : Nat) : Nat → List Byte
  | 0 => []
  | n + 1 => m.read a :: Memory.readN m (a + 1) n

/-- The bytes at ascending addresses from `a` on (R13, MemWrite). -/
def Memory.writeN (m : Memory) (a : Nat) : List Byte → Memory
  | [] => m
  | b :: bs => Memory.writeN (m.write a b) (a + 1) bs

/-- Every listed address is at least `lo`, the addresses rise strictly, and no entry holds what an unlisted address
reads as. -/
def Memory.wfFrom (lo : Nat) : Memory → Bool
  | [] => true
  | (k, v) :: m => decide (lo ≤ k) && v != unwritten && Memory.wfFrom (k + 1) m

/-- The canonical form. -/
def Memory.wf (m : Memory) : Bool := Memory.wfFrom 0 m

/-- Every listed address lies in a space of the given size. -/
def Memory.within (size : Nat) (m : Memory) : Bool := m.all fun c => decide (c.1 < size)

/-- How many bytes a space has (R41). -/
def Space.size (k : Params) : Space → Nat
  | .win => tsSize
  | .buf => k.bufCap

/-- The contents of a space. -/
def State.space (s : State) : Space → Memory
  | .win => s.sync.win
  | .buf => s.framer.buf

/-- `MemRead(space, addr, n)` (R13): `none` where an address does not exist. -/
def memRead (sp : Space) (addr n : Nat) (s : State) : Option (List Byte) :=
  if addr + n ≤ sp.size s.params then some ((s.space sp).readN addr n) else none

/-- `MemWrite(space, addr, n, v)` (R13): the space's new contents, `none` where an address does not exist. -/
def memWrite (sp : Space) (addr : Nat) (v : List Byte) (s : State) : Option Memory :=
  if addr + v.length ≤ sp.size s.params then some ((s.space sp).writeN addr v) else none

/-! ## Counters, trace, control -/

/-- `inc(C)` (R13): `C <- (C + 1) mod 2^CNT_W`. -/
def inc (k : Params) (c : Nat) : Nat := (c + 1) % 2 ^ k.cntW

/-- Append one port transfer to the trace (R77). -/
def State.log (t : Transfer) (s : State) : State := { s with trace := s.trace ++ [t] }

/-- Where control stands inside the operation (log entry 3). -/
def State.goto (ph : Phase) (s : State) : State := { s with phase := ph }

/-- The core reads the source: FSM is AWAITING_SYNC or STREAMING (R64). -/
def State.running (s : State) : Bool := s.framer.fsm == .awaitingSync || s.framer.fsm == .streaming

/-- What the decoder consults of the state (R112). -/
def State.ctx (s : State) : ClassCtx := ⟨s.params, s.sel.pid, s.sel.offset, s.sel.mode, s.framer.fsm⟩

/-! ## Diagnostic events -/

/-- The sticky flag `EV_E` set (R30, R240). -/
def setSticky (kind : EventKind) (d : DiagState) : DiagState :=
  match kind with
  | .syncLoss => { d with evSyncLoss := true }
  | .ccDisc => { d with evCcDisc := true }
  | .tei => { d with evTei := true }

/-- The counter `CNT_E` incremented (R45, R240). -/
def countEvent (k : Params) (kind : EventKind) (c : CounterState) : CounterState :=
  match kind with
  | .syncLoss => { c with syncLoss := inc k c.syncLoss }
  | .ccDisc => { c with ccDisc := inc k c.ccDisc }
  | .tei => { c with tei := inc k c.tei }

/-- `event E(info)` (R13, R240): the flag, the counter, one emission. -/
def State.event (kind : EventKind) (info : BitVec 8) (s : State) : State :=
  { s with
    diag := setSticky kind s.diag
    counters := countEvent s.params kind s.counters
    trace := s.trace ++ [.event kind info] }

/-! ## Into HALTED -/

/-- `FSM <- HALTED; HALT_CAUSE <- cause`, and the operation is over (R219, R246). -/
def State.halt (cause : HaltCause) (s : State) : State :=
  { s with
    framer := { s.framer with fsm := .halted }
    status := { s.status with haltCause := cause }
    phase := .idle }

/-- `raise Halt(cause)`, the fatal entry (R246): nothing is saved, there is no handler, the current operation ends. -/
def raiseHalt (cause : HaltCause) (s : State) : Result := .next (s.halt cause)

/-- The halt cause a clean cause is recorded as (R232). -/
def cleanHalt : CleanCause → HaltCause
  | .endOfStream => .endOfStream
  | .shortRead => .shortRead
  | .readError => .readError

/-- `terminate(cause)` called (R219, R248): the final flush comes first. -/
def State.terminate (cause : CleanCause) (s : State) : State := s.goto (.final cause)

/-- The only way out of HALTED, and the abandoning of any run (R44, R121, R249): every element of R20 at its reset value.
The build's parameters, the inputs still to come and the trace are not state of the core. -/
def State.resetCore (s : State) : State := { State.reset with params := s.params, env := s.env, trace := s.trace }

/-! ## The sink -/

/-- `SinkWrite(v)` up to the point where the core waits for the response (R66). -/
def State.sinkWrite (caller : Caller) (v : List Byte) (s : State) : State := s.goto (.sink caller v)

/-- The transfers of one transaction on `snk_data` and `snk_last` (R60, R66). -/
def sinkBeats : List Byte → List (Byte × Bool)
  | [] => []
  | [b] => [(b, true)]
  | b :: bs => (b, false) :: sinkBeats bs

/-! ## The observation of a run (R18) -/

/-- A transfer that performs RESET (R36, R121). -/
def Transfer.isReset : Transfer → Bool
  | .rst => true
  | .regWrite addr wdata => addr == 0x00 && wdata.getLsbD 1
  | _ => false

/-- The transfers since the last RESET: a new run begins only after one (R42). -/
def sinceReset (ts : List Transfer) : List Transfer := (ts.reverse.takeWhile fun t => !t.isReset).reverse

/-- A write transaction with its response, none for any other transfer. -/
def Transfer.transaction : Transfer → Option (List Byte × Response)
  | .sink bytes resp => some (bytes, resp)
  | _ => none

/-- The write transactions, in order (R18 a). -/
def transactionsOf (ts : List Transfer) : List (List Byte × Response) := ts.filterMap Transfer.transaction

/-- A diagnostic event, none for any other transfer. -/
def Transfer.diagnostic : Transfer → Option (EventKind × BitVec 8)
  | .event kind info => some (kind, info)
  | _ => none

/-- The diagnostic events, in order (R18 b). -/
def eventsOf (ts : List Transfer) : List (EventKind × BitVec 8) := ts.filterMap Transfer.diagnostic

/-- A source symbol consumed (R62). -/
def Transfer.isSymbol : Transfer → Bool
  | .source _ => true
  | _ => false

/-- How many source symbols were consumed (R18 c). -/
def symbolsConsumed (ts : List Transfer) : Nat := ts.countP Transfer.isSymbol

/-- The bytes of the transactions answered OK, in order (R18, R69). -/
def deliveredOf : List Transfer → List Byte
  | [] => []
  | .sink bytes .ok :: ts => bytes ++ deliveredOf ts
  | _ :: ts => deliveredOf ts

/-- The output byte stream of the run so far: what has been delivered since the last RESET (R18, R69). -/
def State.delivered (s : State) : List Byte := deliveredOf (sinceReset s.trace)

/-- What a model exposes of the run so far (R18). -/
def State.observation (s : State) : Observation where
  transactions := transactionsOf (sinceReset s.trace)
  events := eventsOf (sinceReset s.trace)
  consumed := symbolsConsumed (sinceReset s.trace)
  fsm := s.framer.fsm
  status := s.status
  counters := s.counters
  srcPos := s.sync.srcPos

/-! ## Output levels of R60 -/

/-- `done` = STATUS.DONE (R35). -/
def State.done (s : State) : Bool := s.framer.fsm == .halted

/-- `failed` = STATUS.FAILED (R35, D27). -/
def State.failed (s : State) : Bool :=
  s.status.haltCause == .cfgError || s.status.haltCause == .bounds || s.status.haltCause == .writeFail

/-- `src_ready` (R60, R64). -/
def State.srcReady (s : State) : Bool := s.running && s.phase == .idle

end Sys2Proof.Machine
end

