-- ==== Sys2Proof/Machine/Operands.lean ====
section
/-! DEFINITION. Operand assembly: the written configuration words (R122, R126, R127), the legality tests and the
effective offset of START (R123, R129), the header word of a full window (R91) and the span (R194). -/

namespace Sys2Proof.Machine

/-- A configuration write takes `wdata[15:0]`; the upper bits are ignored (R122, R126). -/
def low16 (wdata : Word) : BitVec 16 := wdata.extractLsb' 0 16

/-- CFG_MODE is `wdata[0]` (R33, R127). -/
def ctrlMode (wdata : Word) : Mode := if wdata.getLsbD 0 then .ni else .na

/-- CFG_OFS_EXPL is `wdata[1]` (R33, R127). -/
def ctrlExplicit (wdata : Word) : Bool := wdata.getLsbD 1

/-- `e_pid` of R123, on the signed 16-bit value. -/
def errPid (c : CfgState) : Bool := !(decide (0 ≤ c.pid.toInt) && decide (c.pid.toInt ≤ pidMax))

/-- `e_ofs` of R123: an explicit offset outside (-4, 184). -/
def errOfs (c : CfgState) : Bool :=
  c.ofsExpl && !(decide (ofsMin ≤ c.offset.toInt) && decide (c.offset.toInt ≤ ofsMax))

/-- `e_mis` of R123: ETI-NI with an explicit offset other than 4. -/
def errMis (c : CfgState) : Bool := c.mode == .ni && c.ofsExpl && c.offset.toInt != ofsNi

/-- `eff_offset` (R129). -/
def effOffset (c : CfgState) : Int :=
  if c.ofsExpl then c.offset.toInt
  else match c.mode with
    | .ni => ofsNi
    | .na => ofsDefaultNa

/-- The selector an accepted START latches (R124). -/
def latchSel (c : CfgState) : SelState where
  pid := c.pid.extractLsb' 0 _
  offset := BitVec.ofInt 9 (effOffset c)
  mode := c.mode

/-- The header word of the window (R91). -/
def windowHeader (win : Memory) : BitVec 32 := win.read 0 ++ win.read 1 ++ win.read 2 ++ win.read 3

/-- The payload start of the transport-error path (R188). -/
def teiStart : Int := hdrSize

/-- The payload start of the positive-offset path (R189). -/
def posStart (s : State) (p : Packet) : Int := (p.payloadOffset s.params : Int) + s.sel.offset.toInt

/-- The payload start of the negative-offset path (R190). -/
def negStart (s : State) : Int := (hdrSize : Int) + s.sel.offset.toInt

/-- The bounds check, both ends included (R192). -/
def inBounds (start : Int) : Bool := decide (0 ≤ start) && decide (start ≤ tsSize)

/-- `span = P[start], ..., P[187]` (R194). -/
def spanFrom (p : Packet) (start : Int) : List Byte := p.drop start.toNat

end Sys2Proof.Machine
end

