-- ==== Sys2Proof/Machine/Flags.lean ====
section
/-! DEFINITION. Flags, codes and the register words: the continuity check (R186), the numeric codes (D11) and every
register of the map of R37. -/

namespace Sys2Proof.Machine

/-! ## Codes (D11) -/

def Fsm.code : Fsm → BitVec 2
  | .idle => 0
  | .awaitingSync => 1
  | .streaming => 2
  | .halted => 3

def HaltCause.code : HaltCause → BitVec 3
  | .none => 0
  | .cfgError => 1
  | .endOfStream => 2
  | .shortRead => 3
  | .readError => 4
  | .bounds => 5
  | .writeFail => 6

def Mode.code : Mode → BitVec 1
  | .na => 0
  | .ni => 1

def EventKind.code : EventKind → BitVec 2
  | .syncLoss => 0
  | .ccDisc => 1
  | .tei => 2

/-- The EVT word `kind[1:0] ++ info[7:0]` (R102). -/
def eventWord (kind : EventKind) (info : BitVec 8) : BitVec 10 := EventKind.code kind ++ info

/-! ## The continuity check -/

/-- The new counter is not exactly `(previous + 1) mod 16` and a previous one is recorded (R186). -/
def discontinuity (e : ExtractorState) (cc : Cc) : Bool := e.lastCcValid && cc != e.lastCc + 1

/-- `info` of CC_DISC: the recorded counter in bits 7:4, the new one in bits 3:0 (R102). -/
def ccInfo (recorded new : Cc) : BitVec 8 := recorded ++ new

/-- Record a counter (R186). -/
def State.recordCc (cc : Cc) (s : State) : State := { s with extractor := { lastCcValid := true, lastCc := cc } }

/-- `continuity(P)` (R186). -/
def State.continuity (p : Packet) (s : State) : State :=
  State.recordCc p.continuityCounter
    (if discontinuity s.extractor p.continuityCounter then
      s.event .ccDisc (ccInfo s.extractor.lastCc p.continuityCounter)
     else s)

/-! ## Register words -/

/-- A field right-aligned at bit `lo` of a register word. -/
def place {n : Nat} (v : BitVec n) (lo : Nat) : Word := v.setWidth 64 <<< lo

/-- The composite register STATUS (R35). -/
def statusWord (s : State) : Word :=
  place (Fsm.code s.framer.fsm) 0 ||| place (HaltCause.code s.status.haltCause) 4 |||
  place (BitVec.ofBool s.status.pidRange) 8 ||| place (BitVec.ofBool s.status.ofsRange) 9 |||
  place (BitVec.ofBool s.status.modeOfs) 10 ||| place (BitVec.ofBool s.sync.resync) 12 |||
  place (BitVec.ofBool s.extractor.lastCcValid) 13 |||
  place (if s.extractor.lastCcValid then s.extractor.lastCc else 0) 16 |||
  place (BitVec.ofBool s.done) 24 ||| place (BitVec.ofBool s.failed) 25

/-- The register SEL (R37). -/
def selWord (s : State) : Word := place s.sel.pid 0 ||| place s.sel.offset 16 ||| place (Mode.code s.sel.mode) 32

/-- The register CFG_CTRL (R33, R37). -/
def ctrlWord (s : State) : Word := place (Mode.code s.cfg.mode) 0 ||| place (BitVec.ofBool s.cfg.ofsExpl) 1

/-- The register EVENTS (R37). -/
def eventsWord (s : State) : Word :=
  place (BitVec.ofBool s.diag.evSyncLoss) 0 ||| place (BitVec.ofBool s.diag.evCcDisc) 1 |||
  place (BitVec.ofBool s.diag.evTei) 2

/-- The word read at an address; CTRL is write-only and reads 0, unmapped addresses read 0 (R36, R37).
DESIGN CHOICE (log entry 10): a counter, SRC_POS or BUF_LEN of 2^64 or more reads as its lower 64 bits.  R37 gives the port
64 bits and the spec bounds neither CNT_W nor, but at the default CHUNK_SIZE, the width of BUF_LEN. -/
def readReg (addr : BitVec 8) (s : State) : Word :=
  if addr = 0x08 then place s.cfg.pid 0
  else if addr = 0x10 then place s.cfg.offset 0
  else if addr = 0x18 then ctrlWord s
  else if addr = 0x20 then selWord s
  else if addr = 0x28 then statusWord s
  else if addr = 0x30 then eventsWord s
  else if addr = 0x38 then BitVec.ofNat 64 s.sync.srcPos
  else if addr = 0x40 then BitVec.ofNat 64 s.counters.pktRead
  else if addr = 0x48 then BitVec.ofNat 64 s.counters.pktFwd
  else if addr = 0x50 then BitVec.ofNat 64 s.counters.wr
  else if addr = 0x58 then BitVec.ofNat 64 s.counters.syncLoss
  else if addr = 0x60 then BitVec.ofNat 64 s.counters.ccDisc
  else if addr = 0x68 then BitVec.ofNat 64 s.counters.tei
  else if addr = 0x70 then BitVec.ofNat 64 s.framer.bufLen
  else if addr = 0x78 then BitVec.ofNat 64 s.sync.fill
  else 0

end Sys2Proof.Machine
end

