-- ==== Sys2Proof/Machine/HostOps.lean ====
section
/-! DEFINITION. The host operations (`40_config_and_control.md`). -/

namespace Sys2Proof.Machine

/-- HOST.RESET (R121), in every FSM state. -/
def execHostReset (s : State) : Result := .next s.resetCore

/-- A configuration write acts in IDLE and is ignored in every other state (R38, R280). -/
def writeCfg (c : CfgState) (s : State) : Result :=
  if s.framer.fsm = .idle then .next { s with cfg := c } else .next s

/-- HOST.CFGWR.PID (R122). -/
def execHostCfgwrPid (wdata : Word) (s : State) : Result := writeCfg { s.cfg with pid := low16 wdata } s

/-- HOST.CFGWR.OFFSET (R126). -/
def execHostCfgwrOffset (wdata : Word) (s : State) : Result := writeCfg { s.cfg with offset := low16 wdata } s

/-- HOST.CFGWR.CTRL (R127): both fields together. -/
def execHostCfgwrCtrl (wdata : Word) (s : State) : Result :=
  writeCfg { s.cfg with mode := ctrlMode wdata, ofsExpl := ctrlExplicit wdata } s

/-- START accepted (R124). -/
def startAccepted (s : State) : State :=
  { s with
    sel := latchSel s.cfg
    framer := { s.framer with
      fsm := match s.cfg.mode with
        | .ni => .awaitingSync
        | .na => .streaming } }

/-- START rejected (R125, R244): every failing test sets its bit. -/
def startRejected (s : State) : Result :=
  raiseHalt .cfgError
    { s with status := { s.status with pidRange := errPid s.cfg, ofsRange := errOfs s.cfg, modeOfs := errMis s.cfg } }

/-- HOST.START (R123): ignored in any state but IDLE. -/
def execHostStart (s : State) : Result :=
  if s.framer.fsm = .idle then
    if errPid s.cfg || errOfs s.cfg || errMis s.cfg then startRejected s else .next (startAccepted s)
  else .next s

/-- HOST.RD (R128): the word leaves on `reg_rdata`; nothing else. -/
def execHostRd (addr : BitVec 8) (s : State) : Result := .next (s.log (.regRead addr (readReg addr s)))

end Sys2Proof.Machine
end

