-- ==== Sys2Proof/Machine/PacketOps.lean ====
section
/-! DEFINITION. The packet operations (`43_payload_extractor.md`): the six classes of R111 over the common steps of R180. -/

namespace Sys2Proof.Machine

/-- Opening the gate (R183, R184): a qualifying packet in AWAITING_SYNC of ETI-NI moves FSM to STREAMING. -/
def State.openGate (p : Packet) (s : State) : State :=
  if s.sel.mode = .ni ∧ s.framer.fsm = .awaitingSync ∧ p.qualifies = true then
    { s with framer := { s.framer with fsm := .streaming } }
  else s

/-- The steps every packet that is neither dropped nor skipped takes before its start is computed (R180): gate, then
continuity check. -/
def State.gateAndCheck (p : Packet) (s : State) : State := (s.openGate p).continuity p

/-- The bounds check, then forwarding (R192 to R195): the span is handed to the framer, also when it is empty. -/
def handOver (p : Packet) (start : Int) (s : State) : Result :=
  if inBounds start then
    .next { s with
      counters := { s.counters with pktFwd := inc s.params s.counters.pktFwd }
      phase := .absorb (spanFrom p start) }
  else raiseHalt .bounds s

/-- PKT.DROP (R182): nothing, and the operation is over. -/
def execPktDrop (_p : Packet) (s : State) : Result := .next (s.goto .idle)

/-- PKT.SKIP (R185): nothing, and the operation is over. -/
def execPktSkip (_p : Packet) (s : State) : Result := .next (s.goto .idle)

/-- PKT.FWD_TEI (R188): from the header boundary, whatever the offset. -/
def execPktFwdTei (p : Packet) (s : State) : Result := handOver p teiStart ((s.gateAndCheck p).event .tei 0)

/-- PKT.FWD_POS (R189). -/
def execPktFwdPos (p : Packet) (s : State) : Result := handOver p (posStart s p) (s.gateAndCheck p)

/-- PKT.FWD_NEG (R190). -/
def execPktFwdNeg (p : Packet) (s : State) : Result := handOver p (negStart s) (s.gateAndCheck p)

/-- PKT.BOUNDS (R193): the continuity cell is updated, then the run ends. -/
def execPktBounds (p : Packet) (s : State) : Result := raiseHalt .bounds (s.gateAndCheck p)

end Sys2Proof.Machine
end

