-- ==== Sys2Proof/Machine/Framer.lean ====
section
/-! DEFINITION. The framer operations (`44_output_framer.md`) up to the point where the sink's answer is awaited. -/

namespace Sys2Proof.Machine

/-- The test of R212's loop: a flush is due while BUF_LEN is at least CHUNK_SIZE. -/
def loopPhase (k : Params) (len : Nat) : Phase := if k.chunkSize ≤ len then .drain else .idle

/-- FRM.NA_APPEND (R212). -/
def execFrmNaAppend (span : List Byte) (s : State) : Result :=
  match memWrite .buf s.framer.bufLen span s with
  | none => .fault .bufferOverrun
  | some buf' =>
    .next { s with
      framer := { s.framer with buf := buf', bufLen := s.framer.bufLen + span.length }
      phase := loopPhase s.params (s.framer.bufLen + span.length) }

/-- FRM.NA_FLUSH (R213): the oldest CHUNK_SIZE bytes as one transaction. -/
def execFrmNaFlush (s : State) : Result :=
  match memRead .buf 0 s.params.chunkSize s with
  | none => .fault .bufferOverrun
  | some chunk => .next (s.sinkWrite .naFlush chunk)

/-- FRM.NI_WRITE (R217): the span as one transaction; an empty span writes nothing (R68). -/
def execFrmNiWrite (span : List Byte) (s : State) : Result :=
  if span = [] then .next (s.goto .idle) else .next (s.sinkWrite .niWrite span)

/-- FRM.FINAL (R219): in ETI-NA with a non-empty buffer one last transaction, otherwise the run is over at once. -/
def execFrmFinal (cause : CleanCause) (s : State) : Result :=
  if s.sel.mode = .na ∧ 0 < s.framer.bufLen then
    match memRead .buf 0 s.framer.bufLen s with
    | none => .fault .bufferOverrun
    | some rest => .next (s.sinkWrite (.final cause) rest)
  else .next (s.halt (cleanHalt cause))

end Sys2Proof.Machine
end

