-- ==== Sys2Proof/Machine/Sink.lean ====
section
/-! DEFINITION. The sink's responses (R66) and what each caller does on them (R213, R217, R219). -/

namespace Sys2Proof.Machine

/-- `inc(CNT_WR)`, once per transaction answered OK (R45, R66). -/
def State.countWrite (s : State) : State := { s with counters := { s.counters with wr := inc s.params s.counters.wr } }

/-- R213 after an OK: the bytes behind the chunk move to the front, BUF_LEN falls by CHUNK_SIZE, and R212's loop tests
again. -/
def shiftChunk (s : State) : Result :=
  match memRead .buf s.params.chunkSize (s.framer.bufLen - s.params.chunkSize) s with
  | none => .fault .bufferOverrun
  | some rest =>
    .next { s with
      framer := { s.framer with buf := s.framer.buf.writeN 0 rest, bufLen := s.framer.bufLen - s.params.chunkSize }
      phase := loopPhase s.params (s.framer.bufLen - s.params.chunkSize) }

/-- R219 after an OK: the buffer is empty and the run is over. -/
def State.finalDone (cause : CleanCause) (s : State) : State :=
  { s with framer := { s.framer with bufLen := 0 } }.halt (cleanHalt cause)

/-- What the caller does when its transaction is answered OK. -/
def afterOk (caller : Caller) (s : State) : Result :=
  match caller with
  | .naFlush => shiftChunk s
  | .niWrite => .next (s.goto .idle)
  | .final cause => .next (s.finalDone cause)

/-- SNK.OK (R66): the bytes join the output (R18) and the caller goes on. -/
def execSnkOk (s : State) : Result :=
  match s.phase with
  | .sink caller bytes => afterOk caller (s.log (.sink bytes .ok)).countWrite
  | _ => .fault .noTransaction

/-- SNK.FAIL (R66): fatal for all three callers; the buffer and CNT_WR stay as they are (R213, R217, R219, R244). -/
def execSnkFail (s : State) : Result :=
  match s.phase with
  | .sink _ bytes => raiseHalt .writeFail (s.log (.sink bytes .fail))
  | _ => .fault .noTransaction

end Sys2Proof.Machine
end

