-- ==== Sys2Proof/Machine/Source.lean ====
section
/-! DEFINITION. The source-symbol operations (`42_synchronizer.md`, R161, R166, R167). Each applies only while the core
reads (R64); otherwise the symbol is not consumed and nothing happens (log entry 16). -/

namespace Sys2Proof.Machine

/-- SRC.BYTE (R161): the byte enters the window, and the byte that fills it makes `evaluate_window()` due. -/
def execSrcByte (b : Byte) (s : State) : Result :=
  if s.running then
    if s.sync.fill < tsSize then
      .next { s with
        sync := { s.sync with
          srcPos := inc s.params s.sync.srcPos
          win := s.sync.win.write s.sync.fill b
          fill := s.sync.fill + 1 }
        phase := if s.sync.fill + 1 = tsSize then .window else .idle }
    else .fault .windowOverrun
  else .next s

/-- The partial window is discarded (R166, R167). -/
def State.dropWindow (s : State) : State := { s with sync := { s.sync with fill := 0, resync := false } }

/-- SRC.EOS (R166). -/
def execSrcEos (s : State) : Result :=
  if s.running then
    .next (s.dropWindow.terminate (if s.sync.fill = 0 then .endOfStream else .shortRead))
  else .next s

/-- SRC.ERR (R167). -/
def execSrcErr (s : State) : Result :=
  if s.running then .next (s.dropWindow.terminate .readError) else .next s

end Sys2Proof.Machine
end

