-- ==== Sys2Proof/Machine/WindowOps.lean ====
section
/-! DEFINITION. The window operations (`42_synchronizer.md`, R163, R164). The bytes are those of WIN; the operand is the
header word the decoder looked at. -/

namespace Sys2Proof.Machine

/-- WIN.VALID (R163): the window is yielded as the packet P and `extract(P)` is due. -/
def execWinValid (_h : BitVec 32) (s : State) : Result :=
  .next { s with
    sync := { s.sync with resync := false, fill := 0 }
    counters := { s.counters with pktRead := inc s.params s.counters.pktRead }
    phase := .packet (s.sync.win.readN 0 tsSize) }

/-- `if RESYNC == 0 then { RESYNC <- 1; event SYNC_LOSS }` (R164): one event per loss event. -/
def State.enterResync (s : State) : State :=
  if s.sync.resync then s else { s with sync := { s.sync with resync := true } }.event .syncLoss 0

/-- `WIN[i] <- WIN[i+1]` for i from 0 to 186; `FILL <- 187` (R164). -/
def State.slideWindow (s : State) : State :=
  { s with sync := { s.sync with win := s.sync.win.writeN 0 (s.sync.win.readN 1 (tsSize - 1)), fill := tsSize - 1 } }

/-- WIN.INVALID (R164). -/
def execWinInvalid (_h : BitVec 32) (s : State) : Result := .next (s.enterResync.slideWindow.goto .idle)

end Sys2Proof.Machine
end

