-- ==== Sys2Proof/Machine/Dispatch.lean ====
section
/-! DEFINITION. exec: one arm per operation of R110. -/

namespace Sys2Proof.Machine

def exec (i : Instr) (s : State) : Host.Outcome State Fault Refusal :=
  match i with
  -- host accesses (R100)
  | .hostReset => Sys2Proof.Machine.execHostReset s
  | .hostStart => Sys2Proof.Machine.execHostStart s
  | .hostCfgwrPid wdata => Sys2Proof.Machine.execHostCfgwrPid wdata s
  | .hostCfgwrOffset wdata => Sys2Proof.Machine.execHostCfgwrOffset wdata s
  | .hostCfgwrCtrl wdata => Sys2Proof.Machine.execHostCfgwrCtrl wdata s
  | .hostRd addr => Sys2Proof.Machine.execHostRd addr s
  -- source symbols (R99)
  | .srcByte b => Sys2Proof.Machine.execSrcByte b s
  | .srcEos => Sys2Proof.Machine.execSrcEos s
  | .srcErr => Sys2Proof.Machine.execSrcErr s
  -- a full window (R162)
  | .winValid h => Sys2Proof.Machine.execWinValid h s
  | .winInvalid h => Sys2Proof.Machine.execWinInvalid h s
  -- packet classes (R111)
  | .pktDrop p => Sys2Proof.Machine.execPktDrop p s
  | .pktSkip p => Sys2Proof.Machine.execPktSkip p s
  | .pktFwdTei p => Sys2Proof.Machine.execPktFwdTei p s
  | .pktFwdPos p => Sys2Proof.Machine.execPktFwdPos p s
  | .pktFwdNeg p => Sys2Proof.Machine.execPktFwdNeg p s
  | .pktBounds p => Sys2Proof.Machine.execPktBounds p s
  -- framer (R210)
  | .frmNaAppend span => Sys2Proof.Machine.execFrmNaAppend span s
  | .frmNaFlush => Sys2Proof.Machine.execFrmNaFlush s
  | .frmNiWrite span => Sys2Proof.Machine.execFrmNiWrite span s
  | .frmFinal cause => Sys2Proof.Machine.execFrmFinal cause s
  -- sink responses (R101)
  | .snkOk => Sys2Proof.Machine.execSnkOk s
  | .snkFail => Sys2Proof.Machine.execSnkFail s

end Sys2Proof.Machine
end

