-- ==== Sys2Proof/Machine/Fetch.lean ====
section
/-! DEFINITION. Where the next operation comes from: the call due inside the operation under way, the sink's answer, or
between operations a host input or a source symbol (R14, R64, R77), under a stalled sink a RESET (R289); what happens with a word that selects none; placing a
word where the next step takes it. -/

namespace Sys2Proof.Machine

/-- What the next step finds. -/
inductive Fetched where
  /-- The agent whose turn it is offers nothing the core takes: only its turn passes (R83). -/
  | wait (s : State)
  /-- A word, and the state in which its transfer has been made. -/
  | word (w : PortWord) (s : State)
deriving DecidableEq, Repr

/-- Whose turn it is between operations: the head of the turns, and when none is left the host as long as it has an
input, then the source (log entry 5). -/
def Env.mover (e : Env) : Agent :=
  match e.turns with
  | a :: _ => a
  | [] => if e.host = [] then .source else .host

/-- The turn is used up. -/
def State.passTurn (s : State) : State := { s with env := { s.env with turns := s.env.turns.tail } }

/-- A host input: the transfer, and the word it is.  A read is recorded by its meaning, with the data read. -/
def hostWord : HostInput → PortWord × List Transfer
  | .rst => (.rst, [.rst])
  | .access true addr wdata => (.reg true addr wdata, [.regWrite addr wdata])
  | .access false addr wdata => (.reg false addr wdata, [])

/-- The host moves. -/
def fetchHost (s : State) : Fetched :=
  match s.env.host with
  | [] => .wait s
  | x :: xs => .word (hostWord x).1 { s with env := { s.env with host := xs }, trace := s.trace ++ (hostWord x).2 }

/-- The source moves: a symbol is consumed only while the core reads; otherwise it stays with the source (R62, R64). -/
def fetchSource (s : State) : Fetched :=
  if s.running then
    match s.env.source with
    | [] => .wait s
    | w :: ws => .word (.sym w) { s with env := { s.env with source := ws }, trace := s.trace ++ [.source w] }
  else .wait s

/-- Between two operations (R14). -/
def fetchInput (s : State) : Fetched :=
  match s.env.mover with
  | .host => fetchHost s.passTurn
  | .source => fetchSource s.passTurn

/-- A host input that performs RESET: `rst`, or a write to CTRL with bit 1 set (R36, R121). -/
def HostInput.isReset : HostInput → Bool
  | .rst => true
  | .access we addr wdata => we && addr == 0x00 && wdata.getLsbD 1

/-- The core is stalled on a sink that answers no more: of the host's inputs only a RESET is taken, which ends the run; any
other access waits for the end of the operation, as R14 has it (R83, R289; log entry 6). -/
def fetchStalled (s : State) : Fetched :=
  match s.env.host with
  | [] => .wait s
  | x :: _ => if x.isReset then fetchHost s else .wait s

/-- The sink answers the outstanding transaction; where it has no answer left the core is stalled (R66, R83). -/
def fetchAnswer (s : State) : Fetched :=
  match s.env.answers with
  | [] => fetchStalled s
  | w :: ws => .word (.rsp w) { s with env := { s.env with answers := ws } }

/-- The next word.  Inside an operation it is the call that is due, or the sink's answer; of the host's inputs only a RESET
can come in between, when the sink has stopped answering (R289). -/
def fetch (s : State) : Fetched :=
  match s.phase with
  | .idle => fetchInput s
  | .window => .word (.tsh (windowHeader s.sync.win)) s
  | .packet p => .word (.tsp p) s
  | .absorb span => .word (.frm (.absorb span)) s
  | .drain => .word (.frm .flush) s
  | .final cause => .word (.frm (.terminate cause)) s
  | .sink _ _ => fetchAnswer s

/-- A word that selects no operation: a write without effect changes nothing more (R36, R37), the reserved symbol is
refused (R62), bytes that are no packet are a fault. -/
def undecoded (e : DecodeError) (s : State) : Result :=
  match e with
  | .noEffectWrite => .next s
  | .reservedSymbol => .refused .reservedSymbol
  | .notAPacket => .fault .notAPacket

/-! ## Placing a word -/

/-- Give the next turn to an agent. -/
def State.giveTurn (a : Agent) (s : State) : State := { s with phase := .idle, env := { s.env with turns := a :: s.env.turns } }

/-- Put the core into a run if it is not in one, so that it reads the source. -/
def State.ensureRunning (s : State) : State :=
  if s.running then s else { s with framer := { s.framer with fsm := .streaming } }

/-- Make a transaction outstanding if none is, so that an answer is awaited. -/
def State.ensureTransaction (s : State) : State :=
  match s.phase with
  | .sink _ _ => s
  | _ => s.sinkWrite .niWrite [0x00]

/-- The four bytes of a header word. -/
def headerBytes (h : BitVec 32) : List Byte :=
  [h.extractLsb' 24 8, h.extractLsb' 16 8, h.extractLsb' 8 8, h.extractLsb' 0 8]

/-- Store a word where the next step takes it: a host input or a symbol at the head of its queue with the turn, a header
word at the front of a full window whose other bytes are 0, an answer at the head of the sink's answers. -/
def placeWord (pw : PortWord) (s : State) : State :=
  match pw with
  | .rst => { s with env := { s.env with host := .rst :: s.env.host } }.giveTurn .host
  | .reg we addr wdata => { s with env := { s.env with host := .access we addr wdata :: s.env.host } }.giveTurn .host
  | .sym w => { s.ensureRunning with env := { s.env with source := w :: s.env.source } }.giveTurn .source
  | .tsh h =>
    { s with
      sync := { s.sync with win := Memory.writeN [] 0 (headerBytes h), fill := tsSize }
      phase := .window }
  | .tsp p => s.goto (.packet p)
  | .frm (.absorb span) => s.goto (.absorb span)
  | .frm .flush => s.goto .drain
  | .frm (.terminate cause) => s.goto (.final cause)
  | .rsp w => { s.ensureTransaction with env := { s.env with answers := w :: s.env.answers } }

/-- `withFetchWord` on the number of an opcode-table word; a number that is no word changes nothing. -/
def placeTableWord (nbits w : Nat) (s : State) : State :=
  match tablePortWord nbits w with
  | some pw => placeWord pw s
  | none => s

end Sys2Proof.Machine
end

