-- ==== Sys2Proof/Machine/Step.lean ====
section
/-! DEFINITION. One step: take the next word, decode it, run the operation. -/

namespace Sys2Proof.Machine

/-- One step of the machine.  The three outcomes: the next state, a fault, a refusal. -/
def step (s : State) : Host.Outcome State Fault Refusal :=
  match fetch s with
  | .wait s' => .next s'
  | .word w s' =>
    match decode s'.ctx w with
    | .ok i => exec i s'
    | .error e => undecoded e s'

/-- `s` with the opcode-table word stored where `step` takes its next operation (log entries 7 and 8). -/
def State.withFetchWord (s : State) (nbits w : Nat) : State := placeTableWord nbits w s

end Sys2Proof.Machine
end

