-- ==== Sys2Proof/Safety.lean ====
section
/-! DEFINITION. The invariant of a safe run, and the terms in which claims speak of a run: the operation a step runs, the
bytes held, the run's part of the trace. -/

namespace Sys2Proof.Machine

/-! ## What a step runs -/

/-- The operation the next step runs, if it takes a word that selects one. -/
def State.nextInstr (s : State) : Option Instr :=
  match fetch s with
  | .wait _ => none
  | .word w s' =>
    match decode s'.ctx w with
    | .ok i => some i
    | .error _ => none

/-- Between operations, or stalled on the sink: the places where the core waits for its environment (R83). -/
def State.settled (s : State) : Prop :=
  match s.phase with
  | .idle => True
  | .sink _ _ => True
  | _ => False

/-- The core waits for a source that offers nothing, or for a sink that answers no more (R83, R289). -/
def State.stalled (s : State) : Prop :=
  match s.phase with
  | .idle => s.running = true ∧ s.env.source = []
  | .sink _ _ => s.env.answers = []
  | _ => False

/-! ## The invariant -/

/-- What the place inside an operation implies about the rest of the state. -/
def State.phaseOk (s : State) : Prop :=
  match s.phase with
  | .idle => s.framer.fsm = .halted ∨ s.framer.bufLen < s.params.chunkSize
  | .window => s.running = true ∧ s.sync.fill = tsSize ∧ s.framer.bufLen < s.params.chunkSize
  | .packet p => s.running = true ∧ p.valid = true ∧ s.sync.fill = 0 ∧ s.framer.bufLen < s.params.chunkSize
  | .absorb span =>
    s.framer.fsm = .streaming ∧ s.sync.fill = 0 ∧ s.framer.bufLen < s.params.chunkSize ∧ span.length ≤ spanMax ∧
      (s.sel.mode = .ni → span.length ≤ tsSize - hdrSize)
  | .drain => s.framer.fsm = .streaming ∧ s.sync.fill = 0 ∧ s.sel.mode = .na ∧ s.params.chunkSize ≤ s.framer.bufLen
  | .final _ => s.running = true ∧ s.sync.fill = 0 ∧ s.framer.bufLen < s.params.chunkSize
  | .sink .naFlush bytes =>
    s.framer.fsm = .streaming ∧ s.sync.fill = 0 ∧ s.sel.mode = .na ∧ s.params.chunkSize ≤ s.framer.bufLen ∧
      bytes = s.framer.buf.readN 0 s.params.chunkSize
  | .sink .niWrite bytes =>
    s.framer.fsm = .streaming ∧ s.sync.fill = 0 ∧ s.sel.mode = .ni ∧ 1 ≤ bytes.length ∧ bytes.length ≤ tsSize - hdrSize
  | .sink (.final _) bytes =>
    s.framer.fsm = .streaming ∧ s.sync.fill = 0 ∧ s.sel.mode = .na ∧ 0 < s.framer.bufLen ∧ s.framer.bufLen < s.params.chunkSize ∧
      bytes = s.framer.buf.readN 0 s.framer.bufLen

/-- A counter of CNT_W bits (R45). -/
def fits (k : Params) (c : Nat) : Prop := c < 2 ^ k.cntW

/-- The invariant: what holds of the state before and after every step. -/
structure Inv (s : State) : Prop where
  /-- The build's parameters are legal (R9). -/
  paramsOk : s.params.ok
  /-- WIN is in canonical form and inside its space (R41). -/
  winWf : s.sync.win.wf = true
  winWithin : s.sync.win.within tsSize = true
  /-- BUF is in canonical form and inside its space (R41, R215). -/
  bufWf : s.framer.buf.wf = true
  bufWithin : s.framer.buf.within s.params.bufCap = true
  /-- BUF_LEN never exceeds BUF_CAP (R40, R215). -/
  bufCap : s.framer.bufLen ≤ s.params.bufCap
  /-- FILL is 188 only while the window is being evaluated (R22). -/
  fillRange : s.phase = .window ∨ s.sync.fill < tsSize
  /-- RESYNC is set only inside a run and only at the waiting point FILL = 187 or on the window after it (R22, R23). -/
  resyncRange : s.sync.resync = true → s.running = true ∧ tsSize - 1 ≤ s.sync.fill
  /-- HALT_CAUSE is NONE exactly while FSM is not HALTED (R27). -/
  causeIff : s.status.haltCause = .none ↔ s.framer.fsm ≠ .halted
  /-- A CFG_ERR bit is set exactly when HALT_CAUSE is CFG_ERROR (R28). -/
  cfgErrIff : (s.status.pidRange || s.status.ofsRange || s.status.modeOfs) = true ↔ s.status.haltCause = .cfgError
  /-- The latched offset is legal (R34, R131). -/
  selRange : ofsMin ≤ s.sel.offset.toInt ∧ s.sel.offset.toInt ≤ ofsMax
  /-- ETI-NI forces offset 4 (R34, R131). -/
  selNi : s.sel.mode = .ni → s.sel.offset.toInt = ofsNi
  /-- AWAITING_SYNC exists in ETI-NI only (R221). -/
  awaitNi : s.framer.fsm = .awaitingSync → s.sel.mode = .ni
  /-- In ETI-NI the chunk buffer stays empty (R39). -/
  niEmpty : s.sel.mode = .ni → s.framer.bufLen = 0
  /-- In IDLE everything but the configuration is at its reset value (R124). -/
  idleFresh : s.framer.fsm = .idle → { s with cfg := State.reset.cfg } = s.resetCore
  /-- HALTED is reached only at the end of an operation (R246). -/
  haltedIdle : s.framer.fsm = .halted → s.phase = .idle
  /-- Every counter has CNT_W bits (R45). -/
  srcPosFits : fits s.params s.sync.srcPos
  pktReadFits : fits s.params s.counters.pktRead
  pktFwdFits : fits s.params s.counters.pktFwd
  wrFits : fits s.params s.counters.wr
  syncLossFits : fits s.params s.counters.syncLoss
  ccDiscFits : fits s.params s.counters.ccDisc
  teiFits : fits s.params s.counters.tei
  /-- The place inside an operation agrees with the rest. -/
  phaseOk : s.phaseOk

/-! ## Reset, legality, diagnostics -/

/-- The reset column of R20, element by element, for the elements to which it gives a value. -/
structure State.HasResetValues (s : State) : Prop where
  fsm : s.framer.fsm = .idle
  haltCause : s.status.haltCause = .none
  cfgErr : s.status.pidRange = false ∧ s.status.ofsRange = false ∧ s.status.modeOfs = false
  cfgPid : s.cfg.pid.toInt = 1062
  cfgOffset : s.cfg.offset.toInt = 12
  cfgMode : s.cfg.mode = .na ∧ s.cfg.ofsExpl = false
  selPid : s.sel.pid.toNat = 1062
  selOffset : s.sel.offset.toInt = 12
  selMode : s.sel.mode = .na
  fill : s.sync.fill = 0
  resync : s.sync.resync = false
  srcPos : s.sync.srcPos = 0
  lastCcValid : s.extractor.lastCcValid = false
  sticky : s.diag.evSyncLoss = false ∧ s.diag.evCcDisc = false ∧ s.diag.evTei = false
  bufLen : s.framer.bufLen = 0
  packets : s.counters.pktRead = 0 ∧ s.counters.pktFwd = 0 ∧ s.counters.wr = 0
  events : s.counters.syncLoss = 0 ∧ s.counters.ccDisc = 0 ∧ s.counters.tei = 0

/-- The legality predicate of R130, on integers. -/
def CfgState.legal (c : CfgState) : Prop :=
  (0 ≤ c.pid.toInt ∧ c.pid.toInt ≤ 8191) ∧
  (c.ofsExpl = false ∨ (-3 ≤ c.offset.toInt ∧ c.offset.toInt ≤ 183)) ∧
  (c.mode = .na ∨ c.ofsExpl = false ∨ c.offset.toInt = 4)

/-- The state without what is diagnostic only: the continuity cell (R29), the sticky flags (R30), the counters (R45)
and the record of transfers. -/
def State.erase (s : State) : State :=
  { s with
    extractor := State.reset.extractor, diag := State.reset.diag, counters := State.reset.counters, trace := [] }

/-- A packet operation (R111) by its packet. -/
def packetOf : Instr → Option Packet
  | .pktDrop p => some p
  | .pktSkip p => some p
  | .pktFwdTei p => some p
  | .pktFwdPos p => some p
  | .pktFwdNeg p => some p
  | .pktBounds p => some p
  | .hostReset => none
  | .hostStart => none
  | .hostCfgwrPid _ => none
  | .hostCfgwrOffset _ => none
  | .hostCfgwrCtrl _ => none
  | .hostRd _ => none
  | .srcByte _ => none
  | .srcEos => none
  | .srcErr => none
  | .winValid _ => none
  | .winInvalid _ => none
  | .frmNaAppend _ => none
  | .frmNaFlush => none
  | .frmNiWrite _ => none
  | .frmFinal _ => none
  | .snkOk => none
  | .snkFail => none

/-- The operations that run the continuity check (R186, R198): every class but DROP and SKIP. -/
def checkedClass (p : Packet) (i : Instr) : Prop :=
  i = .pktFwdTei p ∨ i = .pktFwdPos p ∨ i = .pktFwdNeg p ∨ i = .pktBounds p

/-! ## The bytes of a run -/

/-- `BUF[0..BUF_LEN-1]`: the bytes extracted and not yet written (R39). -/
def State.buffered (s : State) : List Byte := s.framer.buf.readN 0 s.framer.bufLen

/-- Bytes handed to the framer that are not in the buffer: a span not yet absorbed, or an ETI-NI span at the sink. -/
def State.inHand (s : State) : List Byte :=
  match s.phase with
  | .absorb span => span
  | .sink .niWrite bytes => bytes
  | _ => []

/-- The stream of extracted bytes of the run so far: what the sink has accepted, what is buffered, what is in hand, oldest first. -/
def State.stream (s : State) : List Byte := s.delivered ++ s.buffered ++ s.inHand

/-! ## The run's part of the trace -/

/-- The data byte of a `BYTE` symbol consumed, none for any other transfer. -/
def Transfer.sourceByte : Transfer → Option Byte
  | .source w => if w.extractLsb' 8 2 = 0 then some (w.extractLsb' 0 8) else none
  | _ => none

/-- The bytes consumed from the source, in order. -/
def sourceBytes (ts : List Transfer) : List Byte := ts.filterMap Transfer.sourceByte

/-- The symbol that ends the source's sequence, `EOS` or `ERR`, consumed (R61, R65). -/
def Transfer.isEnd : Transfer → Bool
  | .source w => w.extractLsb' 8 2 == 1 || w.extractLsb' 8 2 == 2
  | _ => false

/-- How many `EOS` or `ERR` symbols of a run have been consumed, as the rest of the state has it (R65): one from the call of
`terminate` on, and a run that a failed write ended may or may not have been at its end. -/
def State.endsAgree (s : State) (n : Nat) : Prop :=
  match s.phase with
  | .final _ => n = 1
  | .sink (.final _) _ => n = 1
  | _ =>
    match s.status.haltCause with
    | .endOfStream => n = 1
    | .shortRead => n = 1
    | .readError => n = 1
    | .writeFail => n ≤ 1
    | .none => n = 0
    | .cfgError => n = 0
    | .bounds => n = 0

/-- A write transaction answered OK. -/
def Transfer.isOk : Transfer → Bool
  | .sink _ .ok => true
  | _ => false

/-- An emission of an event kind. -/
def Transfer.isEvent (kind : EventKind) : Transfer → Bool
  | .event k _ => k == kind
  | _ => false

/-- How often an event kind was emitted. -/
def eventCount (kind : EventKind) (ts : List Transfer) : Nat := ts.countP (Transfer.isEvent kind)

/-- The counters, the sticky flags and the window say of the run what the port transfers since the last RESET say. -/
structure TraceAgrees (s : State) : Prop where
  /-- SRC_POS counts the BYTE symbols consumed (R25). -/
  srcPos : s.sync.srcPos = (sourceBytes (sinceReset s.trace)).length % 2 ^ s.params.cntW
  /-- `WIN[0..FILL-1]` holds the last FILL of those bytes (R25). -/
  window : s.sync.win.readN 0 s.sync.fill <:+ sourceBytes (sinceReset s.trace)
  /-- Every symbol consumed is a byte or an end of the source (R61, R62). -/
  consumed : symbolsConsumed (sinceReset s.trace) =
    (sourceBytes (sinceReset s.trace)).length + (sinceReset s.trace).countP Transfer.isEnd
  /-- A run consumes at most one end, and it ends the run (R65). -/
  ends : s.endsAgree ((sinceReset s.trace).countP Transfer.isEnd)
  /-- CNT_WR counts the transactions answered OK (R45). -/
  wr : s.counters.wr = (sinceReset s.trace).countP Transfer.isOk % 2 ^ s.params.cntW
  /-- The event counters count the emissions (R45, R240). -/
  syncLoss : s.counters.syncLoss = eventCount .syncLoss (sinceReset s.trace) % 2 ^ s.params.cntW
  ccDisc : s.counters.ccDisc = eventCount .ccDisc (sinceReset s.trace) % 2 ^ s.params.cntW
  tei : s.counters.tei = eventCount .tei (sinceReset s.trace) % 2 ^ s.params.cntW
  /-- The sticky flags say whether there was one (R30). -/
  evSyncLoss : s.diag.evSyncLoss = true ↔ 0 < eventCount .syncLoss (sinceReset s.trace)
  evCcDisc : s.diag.evCcDisc = true ↔ 0 < eventCount .ccDisc (sinceReset s.trace)
  evTei : s.diag.evTei = true ↔ 0 < eventCount .tei (sinceReset s.trace)

end Sys2Proof.Machine
end

