-- ==== Sys2Proof/Certificates/Slice0/Obligations.lean ====
section
/-! DEFINITION. The statements about the model. -/

open Sys2Proof Sys2Proof.Machine

/-! ## Reset and host operations -/

/-- R270, R44: the values of State.reset that the spec gives (the contents of WIN, BUF and LAST_CC are not among them). -/
def Obligations.ResetHasTheSpecValues : Prop :=
  State.reset.HasResetValues ∧ State.reset.running = false ∧ State.reset.params = ⟨6144, 64, .standard⟩

/-- R121: RESET acts in every state, gives every element its reset value, and every register then reads as it does on a core
that was never started; `rst` and the CTRL write are the same operation, and RESET wins over START.  The clauses on what
the model adds to the core's state are the model's choice: the parameters stay (log entry 10), the inputs stay (log entry 4),
no call is due (log entry 3), and RESET does not clear the record of transfers (`t.trace = s.trace`, log entry 13). -/
def Obligations.HostResetRestoresTheResetState : Prop :=
  (∀ s : State, ∃ t, exec .hostReset s = .next t ∧ t.HasResetValues ∧ t.params = s.params ∧ t.env = s.env ∧
    t.trace = s.trace ∧ t.phase = .idle ∧ ∀ addr, readReg addr t = readReg addr State.reset) ∧
  (∀ c, decode c .rst = .ok .hostReset) ∧
  (∀ c (w : Word), w.getLsbD 1 = true → decode c (.reg true 0x00 w) = .ok .hostReset)

/-- R122, R126, R127: in IDLE a configuration write stores its field and nothing else changes. -/
def Obligations.ConfigurationWritesStoreInIdle : Prop :=
  ∀ (s : State) (w : Word), s.framer.fsm = .idle →
    exec (.hostCfgwrPid w) s = .next { s with cfg := ⟨w.setWidth 16, s.cfg.offset, s.cfg.mode, s.cfg.ofsExpl⟩ } ∧
    exec (.hostCfgwrOffset w) s = .next { s with cfg := ⟨s.cfg.pid, w.setWidth 16, s.cfg.mode, s.cfg.ofsExpl⟩ } ∧
    exec (.hostCfgwrCtrl w) s =
      .next { s with cfg := ⟨s.cfg.pid, s.cfg.offset, if w.toNat % 2 = 1 then .ni else .na, decide (w.toNat / 2 % 2 = 1)⟩ }

/-- R38, R123, R280: in every other state of FSM configuration writes and START are ignored. -/
def Obligations.ConfigurationWritesAndStartIgnoredOutsideIdle : Prop :=
  ∀ (s : State) (w : Word), s.framer.fsm ≠ .idle →
    exec (.hostCfgwrPid w) s = .next s ∧ exec (.hostCfgwrOffset w) s = .next s ∧
    exec (.hostCfgwrCtrl w) s = .next s ∧ exec .hostStart s = .next s

/-- R124, R129, R130: START on a legal configuration latches the selector and enters the run; nothing else changes. -/
def Obligations.StartAcceptsALegalConfiguration : Prop :=
  ∀ s : State, s.framer.fsm = .idle → s.cfg.legal →
    ∃ t, exec .hostStart s = .next t ∧
      (t.sel.pid.toNat : Int) = s.cfg.pid.toInt ∧
      t.sel.mode = s.cfg.mode ∧
      t.sel.offset.toInt = (if s.cfg.ofsExpl = true then s.cfg.offset.toInt else if s.cfg.mode = .ni then 4 else 12) ∧
      t.framer.fsm = (if s.cfg.mode = .ni then .awaitingSync else .streaming) ∧
      t = { s with sel := t.sel, framer := { s.framer with fsm := t.framer.fsm } }

/-- R125, R28, R244: START on an illegal configuration halts with CFG_ERROR, one bit for every failing test; nothing else
changes, the selector included. -/
def Obligations.StartRejectsAnIllegalConfiguration : Prop :=
  ∀ s : State, s.framer.fsm = .idle → ¬ s.cfg.legal →
    ∃ t, exec .hostStart s = .next t ∧ t.framer.fsm = .halted ∧ t.status.haltCause = .cfgError ∧
      (t.status.pidRange = true ↔ ¬ (0 ≤ s.cfg.pid.toInt ∧ s.cfg.pid.toInt ≤ 8191)) ∧
      (t.status.ofsRange = true ↔ s.cfg.ofsExpl = true ∧ ¬ (-4 < s.cfg.offset.toInt ∧ s.cfg.offset.toInt < 184)) ∧
      (t.status.modeOfs = true ↔ s.cfg.mode = .ni ∧ s.cfg.ofsExpl = true ∧ s.cfg.offset.toInt ≠ 4) ∧
      t = { s with status := t.status, framer := { s.framer with fsm := .halted }, phase := .idle }

/-- R36, R37: which writes select an operation; CTRL reads 0. -/
def Obligations.WritesSelectByAddress : Prop :=
  ∀ (c : ClassCtx) (addr : BitVec 8) (w : Word),
    decode c (.reg true addr w) =
      (if addr.toNat = 0 then
        (if w.toNat / 2 % 2 = 1 then .ok .hostReset
         else if w.toNat % 2 = 1 then .ok .hostStart else .error .noEffectWrite)
       else if addr.toNat = 8 then .ok (.hostCfgwrPid w)
       else if addr.toNat = 16 then .ok (.hostCfgwrOffset w)
       else if addr.toNat = 24 then .ok (.hostCfgwrCtrl w)
       else .error .noEffectWrite) ∧
    ∀ s : State, readReg 0x00 s = 0

/-- R36, R37: a write without effect, made when it is the host's turn, is taken from the host and changes nothing of the
core. -/
def Obligations.WriteWithoutEffectChangesNothing : Prop :=
  ∀ (s : State) (addr : BitVec 8) (w : Word) (xs : List HostInput),
    s.phase = .idle → s.env.mover = .host → s.env.host = .access true addr w :: xs →
    decode s.ctx (.reg true addr w) = .error .noEffectWrite →
    step s = .next { s with
      env := { s.env with host := xs, turns := s.env.turns.tail }, trace := s.trace ++ [.regWrite addr w] }

/-- R128: a read answers the register's word and has no side effect. -/
def Obligations.HostReadHasNoSideEffect : Prop :=
  ∀ (s : State) (addr : BitVec 8),
    exec (.hostRd addr) s = .next { s with trace := s.trace ++ [.regRead addr (readReg addr s)] }

/-- R37: the register map but for STATUS; fields right-aligned, the other bits 0; counters in full (in states whose counters
have at most 64 bits, as the invariant has it: log entry 10), BUF_LEN where it is below 2^64 (log entry 10); every other
address reads 0. -/
def Obligations.RegisterMapReads : Prop :=
  ∀ s : State, Inv s →
    (readReg 0x08 s).toNat = s.cfg.pid.toNat ∧ (readReg 0x10 s).toNat = s.cfg.offset.toNat ∧
    (readReg 0x18 s).toNat = (if s.cfg.mode = .ni then 1 else 0) + (if s.cfg.ofsExpl = true then 2 else 0) ∧
    (readReg 0x20 s).toNat =
      s.sel.pid.toNat + s.sel.offset.toNat * 2 ^ 16 + (if s.sel.mode = .ni then 2 ^ 32 else 0) ∧
    (readReg 0x30 s).toNat = (if s.diag.evSyncLoss = true then 1 else 0) + (if s.diag.evCcDisc = true then 2 else 0) +
      (if s.diag.evTei = true then 4 else 0) ∧
    (readReg 0x38 s).toNat = s.sync.srcPos ∧ (readReg 0x40 s).toNat = s.counters.pktRead ∧
    (readReg 0x48 s).toNat = s.counters.pktFwd ∧ (readReg 0x50 s).toNat = s.counters.wr ∧
    (readReg 0x58 s).toNat = s.counters.syncLoss ∧ (readReg 0x60 s).toNat = s.counters.ccDisc ∧
    (readReg 0x68 s).toNat = s.counters.tei ∧ (s.framer.bufLen < 2 ^ 64 → (readReg 0x70 s).toNat = s.framer.bufLen) ∧
    (readReg 0x78 s).toNat = s.sync.fill ∧
    ∀ addr : BitVec 8, (120 < addr.toNat ∨ addr.toNat % 8 ≠ 0 ∨ addr.toNat = 0) → readReg addr s = 0

/-- R35: the fields of STATUS and its zero bits; LAST_CC reads 0 while LAST_CC_VALID is 0 (R29). -/
def Obligations.StatusWordFields : Prop :=
  ∀ s : State,
    (readReg 0x28 s).toNat =
      (match s.framer.fsm with
        | .idle => 0
        | .awaitingSync => 1
        | .streaming => 2
        | .halted => 3) +
      2 ^ 4 * (match s.status.haltCause with
        | .none => 0
        | .cfgError => 1
        | .endOfStream => 2
        | .shortRead => 3
        | .readError => 4
        | .bounds => 5
        | .writeFail => 6) +
      2 ^ 8 * s.status.pidRange.toNat + 2 ^ 9 * s.status.ofsRange.toNat + 2 ^ 10 * s.status.modeOfs.toNat +
      2 ^ 12 * s.sync.resync.toNat + 2 ^ 13 * s.extractor.lastCcValid.toNat +
      2 ^ 16 * (if s.extractor.lastCcValid = true then s.extractor.lastCc.toNat else 0) +
      2 ^ 24 * (if s.framer.fsm = .halted then 1 else 0) +
      2 ^ 25 * (if s.status.haltCause = .cfgError ∨ s.status.haltCause = .bounds ∨ s.status.haltCause = .writeFail then 1 else 0)

/-! ## Source symbols and the window -/

/-- R161: a byte consumed in a run enters the window at FILL; every other byte and everything else is unchanged. -/
def Obligations.SourceByteEntersTheWindow : Prop :=
  ∀ (s : State) (b : Byte), s.running = true → s.sync.fill < 188 → s.sync.win.wf = true →
    ∃ t, exec (.srcByte b) s = .next t ∧
      t.sync.srcPos = (s.sync.srcPos + 1) % 2 ^ s.params.cntW ∧
      t.sync.win.read s.sync.fill = b ∧ (∀ a, a ≠ s.sync.fill → t.sync.win.read a = s.sync.win.read a) ∧
      t.sync.win.wf = true ∧
      t.sync.fill = s.sync.fill + 1 ∧ t.sync.resync = s.sync.resync ∧
      t.phase = (if s.sync.fill = 187 then .window else .idle) ∧
      t = { s with sync := t.sync, phase := t.phase }

/-- R166, R167: the end of the source discards the partial window and calls `terminate` with its cause. -/
def Obligations.SourceEndCallsTerminate : Prop :=
  ∀ s : State, s.running = true →
    exec .srcEos s = .next { s with
      sync := { s.sync with fill := 0, resync := false }
      phase := .final (if s.sync.fill = 0 then .endOfStream else .shortRead) } ∧
    exec .srcErr s = .next { s with sync := { s.sync with fill := 0, resync := false }, phase := .final .readError }

/-- The model's choice (log entry 16): outside a run, where R64 lets no symbol be consumed, a source operation does
nothing. -/
def Obligations.SourceOperationsDoNothingOutsideARun : Prop :=
  ∀ (s : State) (b : Byte), s.framer.fsm = .idle ∨ s.framer.fsm = .halted →
    exec (.srcByte b) s = .next s ∧ exec .srcEos s = .next s ∧ exec .srcErr s = .next s

/-- R62, R64, R66: a step takes a symbol only while the core reads and no operation is under way, and then exactly the next
one, which it records before anything else. -/
def Obligations.SymbolsAreConsumedInOrderOnlyWhileReading : Prop :=
  ∀ s t : State, step s = .next t →
    t.env.source = s.env.source ∨
    (s.running = true ∧ s.phase = .idle ∧ ∃ w, s.env.source = w :: t.env.source ∧
      s.trace ++ [.source w] <+: t.trace)

/-- R162, R104, R111: the evaluation of a full window looks at its first byte alone. -/
def Obligations.WindowEvaluationTestsTheFirstByte : Prop :=
  ∀ s : State, s.phase = .window →
    s.nextInstr = some
      (if (s.sync.win.read 0).toNat = 0x47 then
        .winValid (s.sync.win.read 0 ++ s.sync.win.read 1 ++ s.sync.win.read 2 ++ s.sync.win.read 3)
       else .winInvalid (s.sync.win.read 0 ++ s.sync.win.read 1 ++ s.sync.win.read 2 ++ s.sync.win.read 3))

/-- R163: a valid window ends the loss event, is counted, and becomes the packet handed to `extract`. -/
def Obligations.ValidWindowYieldsThePacket : Prop :=
  ∀ (s : State) (h : BitVec 32), ∃ t p, exec (.winValid h) s = .next t ∧ t.phase = .packet p ∧ p.length = 188 ∧
    (∀ i, i < 188 → p.byte i = s.sync.win.read i) ∧
    t = { s with
      sync := { s.sync with resync := false, fill := 0 }
      counters := { s.counters with pktRead := (s.counters.pktRead + 1) % 2 ^ s.params.cntW }
      phase := .packet p }

/-- R164: an invalid window slides by one byte; the first of a loss event raises SYNC_LOSS, the others nothing. -/
def Obligations.InvalidWindowSlidesByOneByte : Prop :=
  ∀ (s : State) (h : BitVec 32), s.sync.win.wf = true → ∃ t, exec (.winInvalid h) s = .next t ∧
    (∀ a, a < 187 → t.sync.win.read a = s.sync.win.read (a + 1)) ∧
    (∀ a, 187 ≤ a → t.sync.win.read a = s.sync.win.read a) ∧ t.sync.win.wf = true ∧
    t.sync.resync = true ∧ t.sync.fill = 187 ∧ t.sync.srcPos = s.sync.srcPos ∧ t.phase = .idle ∧
    t.params = s.params ∧ t.framer = s.framer ∧ t.status = s.status ∧ t.extractor = s.extractor ∧ t.cfg = s.cfg ∧
    t.sel = s.sel ∧ t.env = s.env ∧
    (s.sync.resync = true → t.trace = s.trace ∧ t.diag = s.diag ∧ t.counters = s.counters) ∧
    (s.sync.resync = false →
      t.trace = s.trace ++ [.event .syncLoss 0] ∧ t.diag = { s.diag with evSyncLoss := true } ∧
      t.counters = { s.counters with syncLoss := (s.counters.syncLoss + 1) % 2 ^ s.params.cntW })

/-- R165: in resync mode each further byte completes the window that is the previous one moved by one; a 0x47 at its front
ends the search, anything else slides again without a new event.  That a byte takes two steps is the model's count (log
entry 3); that no host input or turn is queued leaves out only the runs in which the host comes in between (log entry 5). -/
def Obligations.ResyncMovesOneByteDownTheStream : Prop :=
  ∀ (s : State) (b : Byte) (ws : List (BitVec 10)),
    Inv s → s.phase = .idle → s.sync.resync = true → s.env.host = [] → s.env.turns = [] →
    s.env.source = (0#2 ++ b) :: ws →
    ∃ t, core.run 2 s = .next t ∧ t.env.source = ws ∧ t.counters.syncLoss = s.counters.syncLoss ∧
      (s.sync.win.read 0 = 0x47 →
        t.sync.resync = false ∧ t.sync.fill = 0 ∧ t.phase = .packet (s.sync.win.readN 0 187 ++ [b])) ∧
      (s.sync.win.read 0 ≠ 0x47 →
        t.sync.resync = true ∧ t.sync.fill = 187 ∧ t.phase = .idle ∧
        t.sync.win.readN 0 187 = s.sync.win.readN 1 186 ++ [b])

/-- R163, R169: from a packet boundary, 188 bytes that begin with 0x47 are yielded as the packet they are, without a loss
event.  That this takes 189 steps is the model's count: it comes from log entry 3, one step for each row of the operation map,
and no rule gives it.  That no host input or turn is queued leaves out only the runs in which the host comes in between (log
entry 5). -/
def Obligations.AlignedPacketIsYielded : Prop :=
  ∀ (s : State) (p : Packet) (ws : List (BitVec 10)),
    Inv s → s.running = true → s.phase = .idle → s.sync.fill = 0 → s.env.host = [] → s.env.turns = [] →
    p.length = 188 → p.byte 0 = 0x47 → s.env.source = p.map (fun b => 0#2 ++ b) ++ ws →
    ∃ t, core.run 189 s = .next t ∧ t.phase = .packet p ∧ t.env.source = ws ∧ t.sync.fill = 0 ∧ t.sync.resync = false ∧
      t.counters.pktRead = (s.counters.pktRead + 1) % 2 ^ s.params.cntW ∧
      t.counters.syncLoss = s.counters.syncLoss ∧
      t.sync.srcPos = (s.sync.srcPos + 188) % 2 ^ s.params.cntW ∧ t.framer = s.framer ∧ t.sel = s.sel

/-! ## The packet model -/

/-- R91, R141 to R147: every field is the slice of the header word its row names. -/
def Obligations.HeaderFieldsAreSlicesOfTheHeaderWord : Prop :=
  ∀ p : Packet,
    (p.syncOk = true ↔ p.header.toNat / 2 ^ 24 = 0x47) ∧
    (p.transportError = true ↔ p.header.toNat / 2 ^ 23 % 2 = 1) ∧
    (p.unitStart = true ↔ p.header.toNat / 2 ^ 22 % 2 = 1) ∧
    p.pid.toNat = p.header.toNat / 2 ^ 8 % 2 ^ 13 ∧
    p.afc.toNat = p.header.toNat / 2 ^ 4 % 4 ∧
    p.continuityCounter.toNat = p.header.toNat % 16

/-- R149: the default PAYLOAD_OFFSET by AFC value. -/
def Obligations.StandardPayloadOffsetByAfc : Prop :=
  ∀ (k : Params) (p : Packet), k.payload = .standard →
    (p.afc.toNat = 0 ∨ p.afc.toNat = 2 → p.payloadOffset k = 188) ∧
    (p.afc.toNat = 1 → p.payloadOffset k = 4) ∧
    (p.afc.toNat = 3 → p.payloadOffset k = 5 + (p.byte 4).toNat) ∧
    4 ≤ p.payloadOffset k ∧ p.payloadOffset k ≤ 260

/-- R191, R151: the range of the payload start under a legal selector, whatever PAYLOAD_OFFSET the build has, and that only a
packet with AFC other than 1 can leave the packet; the upper ends for AFC other than 1 are those of the default.  That a
replacement is at least 4 for every AFC is log entry 9: R151 gives it as the condition under which the rest stays correct. -/
def Obligations.PayloadStartRange : Prop :=
  ∀ (s : State) (p : Packet), -3 ≤ s.sel.offset.toInt → s.sel.offset.toInt ≤ 183 →
    teiStart = 4 ∧ 4 ≤ p.payloadOffset s.params ∧
    (s.sel.offset.toInt < 0 → 1 ≤ negStart s ∧ negStart s ≤ 3) ∧
    (0 ≤ s.sel.offset.toInt → 4 ≤ posStart s p) ∧
    (p.afc = 1 → p.payloadOffset s.params = 4 ∧ posStart s p ≤ 187) ∧
    (s.params.payload = .standard → p.payloadOffset s.params ≤ 260 ∧ posStart s p ≤ 443)

/-- R111: of the six classes exactly one applies to a valid packet. -/
def Obligations.ExactlyOneClassApplies : Prop :=
  ∀ (c : ClassCtx) (p : Packet), p.valid = true →
    ∃ i, packetOf i = some p ∧ i.selectedBy c ∧ ∀ j, packetOf j = some p → j.selectedBy c → j = i

/-- R181: selection. -/
def Obligations.SelectionRule : Prop :=
  ∀ (s : State) (p : Packet), p.valid = true → s.phase = .packet p →
    (s.nextInstr = some (.pktDrop p) ↔ 0 ≤ s.sel.offset.toInt ∧ p.pid ≠ s.sel.pid)

/-! ## The packet operations -/

/-- R182, R185: a dropped or skipped packet ends the operation and changes nothing. -/
def Obligations.DroppedAndSkippedPacketsChangeNothing : Prop :=
  ∀ (s : State) (p : Packet),
    exec (.pktDrop p) s = .next { s with phase := .idle } ∧ exec (.pktSkip p) s = .next { s with phase := .idle }

/-- R186: the continuity check of every class that runs it, in integers modulo 16. -/
def Obligations.ContinuityCheckRecordsAndReports : Prop :=
  ∀ (s t : State) (p : Packet) (i : Instr), checkedClass p i → exec i s = .next t →
    t.extractor.lastCcValid = true ∧ t.extractor.lastCc.toNat = (p.byte 3).toNat % 16 ∧
    (s.extractor.lastCcValid = true → (p.byte 3).toNat % 16 ≠ (s.extractor.lastCc.toNat + 1) % 16 →
      t.diag.evCcDisc = true ∧ t.counters.ccDisc = (s.counters.ccDisc + 1) % 2 ^ s.params.cntW ∧
      ∃ info : BitVec 8, info.toNat = s.extractor.lastCc.toNat * 16 + (p.byte 3).toNat % 16 ∧
        s.trace ++ [.event .ccDisc info] <+: t.trace) ∧
    ((s.extractor.lastCcValid = false ∨ (p.byte 3).toNat % 16 = (s.extractor.lastCc.toNat + 1) % 16) →
      t.diag.evCcDisc = s.diag.evCcDisc ∧ t.counters.ccDisc = s.counters.ccDisc ∧
      ∀ info, s.trace ++ [.event .ccDisc info] <+: t.trace → False)

/-- R184: the gate opens exactly for a qualifying packet in AWAITING_SYNC of ETI-NI, and FSM is otherwise as before, unless
the class halts the run. -/
def Obligations.GateOpensForAQualifyingPacket : Prop :=
  ∀ (s t : State) (p : Packet) (i : Instr), checkedClass p i → exec i s = .next t → t.framer.fsm ≠ .halted →
    (s.sel.mode = .ni → s.framer.fsm = .awaitingSync → p.unitStart = true → p.transportError = false →
      t.framer.fsm = .streaming) ∧
    (¬ (s.sel.mode = .ni ∧ s.framer.fsm = .awaitingSync ∧ p.unitStart = true ∧ p.transportError = false) →
      t.framer.fsm = s.framer.fsm)

/-- R188: a transport-error packet is forwarded from the header boundary, 184 bytes, whatever the offset, and reported. -/
def Obligations.TransportErrorPacketIsForwardedWhole : Prop :=
  ∀ (s : State) (p : Packet), p.valid = true → p.transportError = true →
    ∃ t span, exec (.pktFwdTei p) s = .next t ∧ t.phase = .absorb span ∧ span.length = 184 ∧
      (∀ i, i < 184 → span.getD i 0 = p.byte (4 + i)) ∧
      t.framer = s.framer ∧ t.status = s.status ∧ t.diag.evTei = true ∧
      t.counters.tei = (s.counters.tei + 1) % 2 ^ s.params.cntW ∧
      t.counters.pktFwd = (s.counters.pktFwd + 1) % 2 ^ s.params.cntW ∧
      (∃ pre, t.trace = pre ++ [.event .tei 0] ∧ s.trace <+: pre)

/-- R189, R192, R194, R195: the positive-offset path within the packet. -/
def Obligations.PositiveOffsetForwardsFromItsStart : Prop :=
  ∀ (s : State) (p : Packet) (start : Nat), p.valid = true → p.transportError = false → 0 ≤ s.sel.offset.toInt →
    (start : Int) = (p.payloadOffset s.params : Int) + s.sel.offset.toInt → start ≤ 188 →
    ∃ t span, exec (.pktFwdPos p) s = .next t ∧ t.phase = .absorb span ∧ span.length = 188 - start ∧
      (∀ i, i < 188 - start → span.getD i 0 = p.byte (start + i)) ∧
      t.status = s.status ∧ t.counters.tei = s.counters.tei ∧ t.diag.evTei = s.diag.evTei ∧
      t.counters.pktFwd = (s.counters.pktFwd + 1) % 2 ^ s.params.cntW

/-- R190, R194, R195: the negative-offset path, from inside the header; PAYLOAD_OFFSET plays no part. -/
def Obligations.NegativeOffsetForwardsFromTheHeader : Prop :=
  ∀ (s : State) (p : Packet) (start : Nat), p.valid = true → p.transportError = false → s.sel.offset.toInt < 0 →
    (start : Int) = 4 + s.sel.offset.toInt →
    ∃ t span, exec (.pktFwdNeg p) s = .next t ∧ t.phase = .absorb span ∧ span.length = 188 - start ∧
      (∀ i, i < 188 - start → span.getD i 0 = p.byte (start + i)) ∧
      t.status = s.status ∧ t.counters.tei = s.counters.tei ∧ t.diag.evTei = s.diag.evTei ∧
      t.counters.pktFwd = (s.counters.pktFwd + 1) % 2 ^ s.params.cntW

/-- R193, R246, R247: a payload start beyond the packet halts the run; what the violating packet did before that stays. -/
def Obligations.BoundsViolationHaltsTheRun : Prop :=
  ∀ (s : State) (p : Packet),
    (∃ t, exec (.pktBounds p) s = .next t ∧ t.framer.fsm = .halted ∧ t.status = { s.status with haltCause := .bounds } ∧
      t.phase = .idle ∧ t.extractor.lastCcValid = true ∧ t.extractor.lastCc = p.continuityCounter ∧
      t.framer.buf = s.framer.buf ∧ t.framer.bufLen = s.framer.bufLen ∧
      t.counters.pktFwd = s.counters.pktFwd ∧ t.delivered = s.delivered ∧
      t.counters.tei = s.counters.tei ∧ t.diag.evTei = s.diag.evTei) ∧
    (188 < (p.payloadOffset s.params : Int) + s.sel.offset.toInt → exec (.pktFwdPos p) s = exec (.pktBounds p) s)

/-- R198: what no packet class changes. -/
def Obligations.PacketOperationsFrame : Prop :=
  ∀ (s t : State) (p : Packet) (i : Instr), packetOf i = some p → exec i s = .next t →
    t.params = s.params ∧ t.sync = s.sync ∧ t.framer.bufLen = s.framer.bufLen ∧
    (∀ a, t.framer.buf.read a = s.framer.buf.read a) ∧ t.cfg = s.cfg ∧ t.sel = s.sel ∧ t.env = s.env ∧
    t.status.pidRange = s.status.pidRange ∧ t.status.ofsRange = s.status.ofsRange ∧ t.status.modeOfs = s.status.modeOfs ∧
    t.diag.evSyncLoss = s.diag.evSyncLoss ∧ t.counters.pktRead = s.counters.pktRead ∧ t.counters.wr = s.counters.wr ∧
    t.counters.syncLoss = s.counters.syncLoss ∧ t.delivered = s.delivered ∧ s.trace <+: t.trace

/-! ## The framer and the sink -/

/-- R212: the span goes behind the buffered bytes; every other byte of BUF and everything else is unchanged; a flush is due
exactly when BUF_LEN has reached CHUNK_SIZE. -/
def Obligations.AppendGoesBehindTheBufferedBytes : Prop :=
  ∀ (s : State) (span : List Byte), s.framer.buf.wf = true → s.framer.bufLen + span.length ≤ s.params.chunkSize + 186 →
    ∃ t, exec (.frmNaAppend span) s = .next t ∧ t.framer.bufLen = s.framer.bufLen + span.length ∧
      (∀ i, i < span.length → t.framer.buf.read (s.framer.bufLen + i) = span.getD i 0) ∧
      (∀ a, a < s.framer.bufLen ∨ s.framer.bufLen + span.length ≤ a → t.framer.buf.read a = s.framer.buf.read a) ∧
      t.framer.buf.wf = true ∧ t.framer.fsm = s.framer.fsm ∧
      t.phase = (if s.params.chunkSize ≤ s.framer.bufLen + span.length then .drain else .idle) ∧
      t = { s with framer := t.framer, phase := t.phase }

/-- R213: a flush presents the oldest CHUNK_SIZE bytes as one transaction and changes nothing until it is answered. -/
def Obligations.FlushPresentsTheOldestChunk : Prop :=
  ∀ s : State, ∃ bytes, exec .frmNaFlush s = .next { s with phase := .sink .naFlush bytes } ∧
    bytes.length = s.params.chunkSize ∧
    ∀ i, i < s.params.chunkSize → bytes.getD i 0 = s.framer.buf.read i

/-- R213: an answered flush is counted once, the surplus moves to the front, and the loop of R212 tests again. -/
def Obligations.AnsweredFlushShiftsTheSurplus : Prop :=
  ∀ (s : State) (bytes : List Byte), s.phase = .sink .naFlush bytes → s.framer.buf.wf = true →
    s.params.chunkSize ≤ s.framer.bufLen → s.framer.bufLen ≤ s.params.chunkSize + 186 →
    ∃ t, exec .snkOk s = .next t ∧ t.framer.bufLen = s.framer.bufLen - s.params.chunkSize ∧
      (∀ i, i < s.framer.bufLen - s.params.chunkSize → t.framer.buf.read i = s.framer.buf.read (s.params.chunkSize + i)) ∧
      (∀ a, s.framer.bufLen - s.params.chunkSize ≤ a → t.framer.buf.read a = s.framer.buf.read a) ∧
      t.framer.fsm = s.framer.fsm ∧
      t.phase = (if s.params.chunkSize ≤ s.framer.bufLen - s.params.chunkSize then .drain else .idle) ∧
      t = { s with
        framer := t.framer, phase := t.phase, trace := s.trace ++ [.sink bytes .ok]
        counters := { s.counters with wr := (s.counters.wr + 1) % 2 ^ s.params.cntW } }

/-- R217, R68: an ETI-NI span is one transaction of its own; an empty span writes nothing; an OK is counted and ends the
operation. -/
def Obligations.NiSpanIsOneTransaction : Prop :=
  ∀ (s : State) (span : List Byte),
    (span = [] → exec (.frmNiWrite span) s = .next { s with phase := .idle }) ∧
    (span ≠ [] → exec (.frmNiWrite span) s = .next { s with phase := .sink .niWrite span }) ∧
    (s.phase = .sink .niWrite span → exec .snkOk s = .next { s with
      phase := .idle, trace := s.trace ++ [.sink span .ok]
      counters := { s.counters with wr := (s.counters.wr + 1) % 2 ^ s.params.cntW } })

/-- R219, R248: the clean end writes what ETI-NA has buffered as one last transaction, and otherwise halts at once. -/
def Obligations.FinalFlushAtACleanEnd : Prop :=
  ∀ (s : State) (cause : CleanCause),
    (s.sel.mode = .na → 0 < s.framer.bufLen → s.framer.bufLen ≤ s.params.chunkSize + 186 →
      ∃ bytes, exec (.frmFinal cause) s = .next { s with phase := .sink (.final cause) bytes } ∧
        bytes.length = s.framer.bufLen ∧ ∀ i, i < s.framer.bufLen → bytes.getD i 0 = s.framer.buf.read i) ∧
    (s.sel.mode = .ni ∨ s.framer.bufLen = 0 →
      exec (.frmFinal cause) s = .next { s with
        framer := { s.framer with fsm := .halted }
        status := { s.status with haltCause := match cause with
          | .endOfStream => .endOfStream
          | .shortRead => .shortRead
          | .readError => .readError }
        phase := .idle }) ∧
    (∀ bytes, s.phase = .sink (.final cause) bytes →
      exec .snkOk s = .next { s with
        framer := { s.framer with fsm := .halted, bufLen := 0 }
        status := { s.status with haltCause := match cause with
          | .endOfStream => .endOfStream
          | .shortRead => .shortRead
          | .readError => .readError }
        phase := .idle, trace := s.trace ++ [.sink bytes .ok]
        counters := { s.counters with wr := (s.counters.wr + 1) % 2 ^ s.params.cntW } })

/-- R66, R213, R217, R219, R247: a failed write halts with WRITE_FAIL, whoever called; the buffer and CNT_WR stay. -/
def Obligations.FailedWriteHaltsTheRun : Prop :=
  ∀ (s : State) (caller : Caller) (bytes : List Byte), s.phase = .sink caller bytes →
    exec .snkFail s = .next { s with
      framer := ⟨.halted, s.framer.buf, s.framer.bufLen⟩
      status := { s.status with haltCause := .writeFail }
      phase := .idle, trace := s.trace ++ [.sink bytes .fail] }

/-- The model's choice (log entry 12): a response with no transaction outstanding is a fault. -/
def Obligations.AnswerWithoutTransactionFaults : Prop :=
  ∀ s : State, (∀ caller bytes, s.phase ≠ .sink caller bytes) →
    exec .snkOk s = .fault .noTransaction ∧ exec .snkFail s = .fault .noTransaction

/-- R66: the bytes of a transaction leave in order, and `snk_last` accompanies the last of them alone. -/
def Obligations.TransactionBeatsMarkTheLastByte : Prop :=
  ∀ v : List Byte, v ≠ [] →
    (sinkBeats v).map Prod.fst = v ∧
    ∀ i, i < v.length → ((sinkBeats v).getD i (0, false)).2 = decide (i + 1 = v.length)

/-! ## Encoding and stepping -/

/-- R110, R111, R113: decoding the encoding of a well-formed operation gives it back, wherever the operation map selects
it. -/
def Obligations.DecodeOfEncodeIsTheOperation : Prop :=
  ∀ (c : ClassCtx) (i : Instr), i.wellFormed = true → i.selectedBy c → decode c (encode i) = .ok i

/-- R110, R111: what the decoder answers is selected by the operation map, and for a word at a port or in a full window it is
well formed. -/
def Obligations.DecodedOperationIsSelected : Prop :=
  ∀ (c : ClassCtx) (w : PortWord) (i : Instr), decode c w = .ok i →
    i.selectedBy c ∧ ((∀ call, w ≠ .frm call) → i.wellFormed = true)

/-- R113: words written out from the operation map decode to their operations.  That the two-byte words 0x047 and 0x100 are
source symbols is the model's choice (log entry 8): R113 gives the same numbers to register reads. -/
def Obligations.TableWordsDecode : Prop :=
  decodeTableWord 16 0b10000000010 = some .hostReset ∧ decodeTableWord 16 0b10000000001 = some .hostStart ∧
  decodeTableWord 16 0b10000100000 = some (.hostCfgwrPid 0) ∧ decodeTableWord 16 0b0001000111 = some (.srcByte 0x47) ∧
  decodeTableWord 16 0b0100000000 = some .srcEos ∧ decodeTableWord 32 0x47042610 = some (.winValid 0x47042610) ∧
  decodeTableWord 32 0x46042610 = some (.winInvalid 0x46042610) ∧ decodeTableWord 8 1 = some .snkFail

/-- A step runs the decoded operation on the state in which its word's transfer has been made.  Inside an operation no host
input and no source symbol is taken (R14), but for a RESET while the sink has no answer left (R289; log entry 6). -/
def Obligations.StepRunsTheDecodedOperation : Prop :=
  ∀ (s s1 : State) (w : PortWord) (i : Instr), fetch s = .word w s1 → decode s1.ctx w = .ok i →
    step s = exec i s1 ∧
    (s.phase ≠ .idle →
      s1.env.source = s.env.source ∧
      (s1.env.host = s.env.host ∧ s1.trace = s.trace ∨
       i = .hostReset ∧ s.env.answers = [] ∧ ∃ caller bytes, s.phase = .sink caller bytes))

/-! ## Whole-machine statements -/

/-- The invariant holds at reset. -/
def Obligations.InvariantHoldsAtReset : Prop := Inv State.reset ∧ TraceAgrees State.reset

/-- R21, R22, R27, R28, R34, R39, R40, R45, R131, R215: every step keeps the invariant. -/
def Obligations.StepKeepsTheInvariant : Prop :=
  ∀ s t : State, Inv s → step s = .next t → Inv t

/-- From a state of the invariant a step never faults, and it refuses only the reserved symbol (R62, R107). -/
def Obligations.StepNeverFaults : Prop :=
  ∀ s : State, Inv s →
    (∃ t, step s = .next t) ∨
    (step s = .refused .reservedSymbol ∧ s.running = true ∧ s.phase = .idle ∧
      ∃ w ws, s.env.source = w :: ws ∧ 768 ≤ w.toNat)

/-- R25, R30, R45, R240: counters, sticky flags and window agree with the port transfers since RESET, step after step. -/
def Obligations.StepKeepsCountersInAgreementWithTheTrace : Prop :=
  ∀ s t : State, Inv s → TraceAgrees s → step s = .next t → TraceAgrees t

/-- R70, R78, R216, R121, R217: what a step does to the extracted stream of the run.  RESET empties it, a packet step keeps what
was there, a failed ETI-NI write takes off the span that was at the sink, and every other step neither loses, adds nor reorders
a byte. -/
def Obligations.StepConservesTheExtractedStream : Prop :=
  ∀ s t : State, Inv s → step s = .next t →
    (s.nextInstr = some .hostReset → t.stream = []) ∧
    (∀ p, s.phase = .packet p → s.stream <+: t.stream) ∧
    (∀ bytes, s.phase = .sink .niWrite bytes → s.nextInstr = some .snkFail → t.stream ++ bytes = s.stream) ∧
    (s.nextInstr ≠ some .hostReset → (∀ p, s.phase ≠ .packet p) →
      (∀ bytes, s.phase = .sink .niWrite bytes → s.nextInstr ≠ some .snkFail) → t.stream = s.stream)

/-- R181 to R195: a packet step adds to the extracted stream the end of the packet from its payload start, or nothing. -/
def Obligations.PacketStepExtendsTheStream : Prop :=
  ∀ (s t : State) (p : Packet), Inv s → s.phase = .packet p → step s = .next t →
    (t.stream = s.stream ∧ t.counters.pktFwd = s.counters.pktFwd ∧ t.phase = .idle) ∨
    (∃ start : Nat, 1 ≤ start ∧ start ≤ 188 ∧ t.stream = s.stream ++ p.drop start ∧
      t.counters.pktFwd = (s.counters.pktFwd + 1) % 2 ^ s.params.cntW ∧
      (s.nextInstr = some (.pktFwdTei p) ∧ start = 4 ∨
       s.nextInstr = some (.pktFwdPos p) ∧ (start : Int) = (p.payloadOffset s.params : Int) + s.sel.offset.toInt ∨
       s.nextInstr = some (.pktFwdNeg p) ∧ (start : Int) = 4 + s.sel.offset.toInt))

/-- R34, R38, R81: outside IDLE only RESET changes the configuration or the selector. -/
def Obligations.SelectorIsImmutableForTheRun : Prop :=
  ∀ s t : State, s.framer.fsm ≠ .idle → step s = .next t → s.nextInstr ≠ some .hostReset → t.sel = s.sel ∧ t.cfg = s.cfg

/-- R26, R64, R220, R249: in HALTED nothing but RESET has an effect on the core: no symbol consumed, nothing written, no
event. -/
def Obligations.HaltedIsTerminal : Prop :=
  ∀ s t : State, Inv s → s.framer.fsm = .halted → step s = .next t → s.nextInstr ≠ some .hostReset →
    { t with env := s.env, trace := s.trace } = s ∧ t.env.source = s.env.source ∧ t.env.answers = s.env.answers ∧
    t.delivered = s.delivered ∧ ∀ kind, eventCount kind t.trace = eventCount kind s.trace

/-- R222: every transition of FSM, with its condition; there are no others. -/
def Obligations.FsmTransitions : Prop :=
  ∀ s t : State, Inv s → step s = .next t → t.framer.fsm ≠ s.framer.fsm →
    (s.nextInstr = some .hostReset ∧ t.framer.fsm = .idle) ∨
    (s.framer.fsm = .idle ∧ s.nextInstr = some .hostStart ∧ s.cfg.legal ∧ s.cfg.mode = .na ∧ t.framer.fsm = .streaming) ∨
    (s.framer.fsm = .idle ∧ s.nextInstr = some .hostStart ∧ s.cfg.legal ∧ s.cfg.mode = .ni ∧ t.framer.fsm = .awaitingSync) ∨
    (s.framer.fsm = .idle ∧ s.nextInstr = some .hostStart ∧ ¬ s.cfg.legal ∧ t.framer.fsm = .halted ∧
      t.status.haltCause = .cfgError) ∨
    (s.framer.fsm = .awaitingSync ∧ t.framer.fsm = .streaming ∧ ∃ p, s.nextInstr = some (.pktFwdPos p) ∧
      p.unitStart = true ∧ p.transportError = false) ∨
    (t.framer.fsm = .halted ∧ ∃ cause, (s.phase = .final cause ∨ ∃ bytes, s.phase = .sink (.final cause) bytes ∧
      s.framer.fsm = .streaming) ∧ t.status.haltCause = cleanHalt cause ∧ s.nextInstr ≠ some .snkFail) ∨
    (s.framer.fsm = .streaming ∧ s.nextInstr = some .snkFail ∧ t.framer.fsm = .halted ∧ t.status.haltCause = .writeFail) ∨
    (t.framer.fsm = .halted ∧ t.status.haltCause = .bounds ∧ ∃ p, s.nextInstr = some (.pktBounds p))

/-- R183, R185: while the gate is closed no byte reaches the sink, whatever the step, and no transaction is begun. -/
def Obligations.ClosedGateWritesNothing : Prop :=
  ∀ s t : State, Inv s → s.framer.fsm = .awaitingSync → step s = .next t →
    deliveredOf t.trace = deliveredOf s.trace ∧ (s.nextInstr ≠ some .hostReset → t.delivered = s.delivered) ∧
    (∀ caller bytes, t.phase ≠ .sink caller bytes) ∧
    (t.framer.fsm = .awaitingSync → ∀ span, t.phase ≠ .absorb span)

/-- R67, R68: the length of a transaction when it is begun. -/
def Obligations.TransactionLengths : Prop :=
  ∀ (s t : State) (caller : Caller) (bytes : List Byte), Inv s → step s = .next t → t.phase = .sink caller bytes →
    (caller = .naFlush → bytes.length = s.params.chunkSize) ∧
    (∀ cause, caller = .final cause → 1 ≤ bytes.length ∧ bytes.length < s.params.chunkSize) ∧
    (caller = .niWrite → 1 ≤ bytes.length ∧ bytes.length ≤ 184)

/-- R14, R212, R214: an operation under way ends, or waits for the sink.  That this takes at most four further steps is the
model's count: it comes from log entry 3, one step for each row of the operation map, and no rule gives it. -/
def Obligations.OperationSettlesWithinFourSteps : Prop :=
  ∀ s : State, Inv s → ∃ k t, k ≤ 4 ∧ core.run k s = .next t ∧ t.settled

/-- R83, R264: where the environment offers nothing the core takes, a step changes nothing.  R289: a stalled run goes on with
`done` = 0 until a RESET, which is taken also while a transaction waits for its answer, and discards what is buffered.  That
every other host input waits for the sink, and that a sink with no answer queued is one that has stopped answering, is the
model's choice (log entry 6). -/
def Obligations.StalledCoreWaits : Prop :=
  ∀ s : State,
    (s.env.turns = [] → s.phase = .idle → s.env.host = [] →
      s.env.source = [] ∨ s.framer.fsm = .idle ∨ s.framer.fsm = .halted → step s = .next s) ∧
    (∀ caller bytes, s.phase = .sink caller bytes → s.env.answers = [] →
      (∀ x xs, s.env.host = x :: xs → x.isReset = false) → step s = .next s) ∧
    (Inv s → s.stalled → s.done = false ∧ ∃ t, step s = .next t ∧
      (s.nextInstr ≠ some .hostReset → t.stalled ∧ t.done = false ∧ t.framer = s.framer ∧ t.phase = s.phase)) ∧
    (∀ x xs, s.env.host = x :: xs → x.isReset = true →
      (s.phase = .idle ∧ s.env.mover = .host) ∨ (s.env.answers = [] ∧ ∃ caller bytes, s.phase = .sink caller bytes) →
      s.nextInstr = some .hostReset ∧ ∃ t, step s = .next t ∧ t.HasResetValues ∧ t.phase = .idle ∧ t.env.host = xs ∧
        t.stream = [])

/-- R29, R30, R233: the continuity cell, the sticky flags, the counters and the record never influence anything else: two
states that differ in these alone step to two states that differ in these alone, and the two steps make the same sink
transactions, with the same bytes delivered. -/
def Obligations.DiagnosticsNeverInfluenceTheDataPath : Prop :=
  ∀ s s' t : State, s.erase = s'.erase → step s = .next t → ∃ t' u u', step s' = .next t' ∧ t'.erase = t.erase ∧
    t.trace = s.trace ++ u ∧ t'.trace = s'.trace ++ u' ∧
    transactionsOf u' = transactionsOf u ∧ deliveredOf u' = deliveredOf u

/-- R18, R65, R45: the observation of a run.  The output is the bytes of the transactions answered OK, in order; CNT_WR and the
event counters count what the observation lists; the symbols consumed are SRC_POS and one more once `EOS` or `ERR` has been
consumed, as it has in a run whose cause is END_OF_STREAM, SHORT_READ or READ_ERROR (all modulo 2^CNT_W). -/
def Obligations.ObservationOfARun : Prop :=
  ∀ s : State, Inv s → TraceAgrees s →
    s.delivered = ((s.observation.transactions.filter fun x => x.2 == .ok).map Prod.fst).flatten ∧
    s.counters.wr = (s.observation.transactions.countP fun x => x.2 == .ok) % 2 ^ s.params.cntW ∧
    s.counters.syncLoss = (s.observation.events.countP fun x => x.1 == .syncLoss) % 2 ^ s.params.cntW ∧
    s.counters.ccDisc = (s.observation.events.countP fun x => x.1 == .ccDisc) % 2 ^ s.params.cntW ∧
    s.counters.tei = (s.observation.events.countP fun x => x.1 == .tei) % 2 ^ s.params.cntW ∧
    ((∃ w, Transfer.source w ∈ sinceReset s.trace ∧ (w.toNat / 256 = 1 ∨ w.toNat / 256 = 2)) →
      s.observation.consumed % 2 ^ s.params.cntW = (s.sync.srcPos + 1) % 2 ^ s.params.cntW) ∧
    (¬ (∃ w, Transfer.source w ∈ sinceReset s.trace ∧ (w.toNat / 256 = 1 ∨ w.toNat / 256 = 2)) →
      s.observation.consumed % 2 ^ s.params.cntW = s.sync.srcPos) ∧
    (s.status.haltCause = .endOfStream ∨ s.status.haltCause = .shortRead ∨ s.status.haltCause = .readError →
      ∃ w, Transfer.source w ∈ sinceReset s.trace ∧ (w.toNat / 256 = 1 ∨ w.toNat / 256 = 2))
end

