-- ==== Sys2Proof/Laws/Decode.lean ====
section
/-! SUPPORT. What the decoder can answer: one lemma per format. -/

namespace Sys2Proof

/-- A valid packet has 188 bytes and begins with the sync marker. -/
theorem Packet.valid_iff (p : Packet) : p.valid = true ↔ p.length = 188 ∧ p.byte 0 = 0x47 := by
  simp [Packet.valid, parse, Packet.syncOk, tsSize, syncMarker]

/-- Bits 31:24 of a word of four bytes are its first byte. -/
theorem append4_high (a b c d : Byte) : (a ++ b ++ c ++ d).extractLsb' 24 8 = a := by
  rw [BitVec.extractLsb'_append_eq_of_le (by omega), BitVec.extractLsb'_append_eq_of_le (by omega),
    BitVec.extractLsb'_append_eq_of_le (by omega)]
  simp

/-- The sync field of the header word is byte 0 (R91). -/
theorem headerSync_header (p : Packet) : headerSync p.header = p.syncOk := by
  rw [headerSync, Packet.header, append4_high, Packet.syncOk]

/-- A host access selects nothing only by a write. -/
theorem decodeReg_read (addr : BitVec 8) (wdata : Word) : decodeReg false addr wdata = .ok (.hostRd addr) := rfl

/-- The class of a packet is one of the six. -/
theorem classify_cases (c : ClassCtx) (p : Packet) :
    classify c p = .pktDrop p ∨ classify c p = .pktSkip p ∨ classify c p = .pktFwdTei p ∨ classify c p = .pktFwdPos p ∨
      classify c p = .pktFwdNeg p ∨ classify c p = .pktBounds p := by
  unfold classify
  split_ifs <;> simp

end Sys2Proof
end

