-- ==== Sys2Proof/Laws/Memory.lean ====
section
/-! SUPPORT. The laws of the byte-addressed spaces: read after write, the canonical form, ranges of bytes. -/

namespace Sys2Proof.Machine

@[simp] theorem Memory.read_nil (a : Nat) : Memory.read [] a = unwritten := rfl

theorem Memory.wfFrom_mono {m : Memory} {lo lo' : Nat} (hle : lo' ≤ lo) (h : Memory.wfFrom lo m = true) :
    Memory.wfFrom lo' m = true := by
  cases m with
  | nil => rfl
  | cons c m =>
    obtain ⟨k, v⟩ := c
    simp only [Memory.wfFrom, Bool.and_eq_true, decide_eq_true_eq] at h ⊢
    exact ⟨⟨hle.trans h.1.1, h.1.2⟩, h.2⟩

/-- Below the first address a canonical memory may list, every byte is unwritten. -/
theorem Memory.read_below {m : Memory} {lo a : Nat} (h : Memory.wfFrom lo m = true) (ha : a < lo) :
    m.read a = unwritten := by
  induction m generalizing lo with
  | nil => rfl
  | cons c m ih =>
    obtain ⟨k, v⟩ := c
    simp only [Memory.wfFrom, Bool.and_eq_true, decide_eq_true_eq] at h
    rw [Memory.read, if_neg (by omega)]
    exact ih h.2 (by omega)

/-- Read after write, on canonical memories. -/
theorem Memory.read_write {m : Memory} {lo : Nat} (h : Memory.wfFrom lo m = true) (a : Nat) (b : Byte) (x : Nat) :
    (m.write a b).read x = if x = a then b else m.read x := by
  induction m generalizing lo with
  | nil =>
    rw [Memory.write, Memory.read_nil]
    by_cases hb : b = unwritten
    · rw [if_pos hb, Memory.read_nil, hb]; simp
    · rw [if_neg hb, Memory.read, Memory.read_nil]; simp only [eq_comm]
  | cons c m ih =>
    obtain ⟨k, v⟩ := c
    simp only [Memory.wfFrom, Bool.and_eq_true, decide_eq_true_eq] at h
    have below : ∀ y, y ≤ k → Memory.read m y = unwritten := fun y hy => Memory.read_below h.2 (by omega)
    rcases Nat.lt_trichotomy k a with hk | hk | hk
    · rw [Memory.write, if_pos hk, Memory.read, Memory.read, ih h.2]
      by_cases hx : k = x
      · simp [hx]; omega
      · simp [hx]
    · subst hk
      rw [Memory.write, if_neg (by omega), if_pos rfl]
      by_cases hb : b = unwritten <;> by_cases hx : k = x
      · subst hx; simp [hb, below]
      · simp [hb, Memory.read, hx, Ne.symm hx]
      · subst hx; simp [hb, Memory.read]
      · simp [hb, Memory.read, hx, Ne.symm hx]
    · rw [Memory.write, if_neg (by omega), if_neg (by omega)]
      by_cases hb : b = unwritten <;> by_cases hx : x = a
      · subst hx; simp [hb, Memory.read, below x (by omega)]; omega
      · simp [hb, hx]
      · subst hx; simp [hb, Memory.read]
      · simp [hb, hx, Memory.read, Ne.symm hx]

/-- A write keeps the canonical form. -/
theorem Memory.wfFrom_write {m : Memory} {lo : Nat} (h : Memory.wfFrom lo m = true) (a : Nat) (b : Byte) (ha : lo ≤ a) :
    Memory.wfFrom lo (m.write a b) = true := by
  induction m generalizing lo with
  | nil => by_cases hb : b = unwritten <;> simp [Memory.write, Memory.wfFrom, hb, ha]
  | cons c m ih =>
    obtain ⟨k, v⟩ := c
    simp only [Memory.wfFrom, Bool.and_eq_true, decide_eq_true_eq] at h
    rcases Nat.lt_trichotomy k a with hk | hk | hk
    · rw [Memory.write, if_pos hk]
      simp only [Memory.wfFrom, Bool.and_eq_true, decide_eq_true_eq]
      exact ⟨h.1, ih h.2 (by omega)⟩
    · subst hk
      rw [Memory.write, if_neg (by omega), if_pos rfl]
      by_cases hb : b = unwritten
      · simpa [hb] using Memory.wfFrom_mono (by omega) h.2
      · simp [hb, Memory.wfFrom, ha, h.2]
    · rw [Memory.write, if_neg (by omega), if_neg (by omega)]
      by_cases hb : b = unwritten
      · simp [hb, Memory.wfFrom, h.1.1, h.2]; simpa using h.1.2
      · simp only [hb, if_false, Memory.wfFrom, Bool.and_eq_true, decide_eq_true_eq]
        exact ⟨⟨ha, by simpa using hb⟩, ⟨by omega, h.1.2⟩, h.2⟩

theorem Memory.wf_write {m : Memory} (h : m.wf = true) (a : Nat) (b : Byte) : (m.write a b).wf = true :=
  Memory.wfFrom_write h a b (Nat.zero_le a)

theorem Memory.within_write {m : Memory} {size : Nat} (h : m.within size = true) (a : Nat) (b : Byte) (ha : a < size) :
    (m.write a b).within size = true := by
  induction m with
  | nil => by_cases hb : b = unwritten <;> simp [Memory.write, Memory.within, hb, ha]
  | cons c m ih =>
    obtain ⟨k, v⟩ := c
    simp only [Memory.within, List.all_cons, Bool.and_eq_true, decide_eq_true_eq] at h ih
    rw [Memory.write]
    split_ifs with h1 h2 h3 h4
    · simp only [Memory.within, List.all_cons, Bool.and_eq_true, decide_eq_true_eq]
      exact ⟨h.1, ih h.2⟩
    · exact h.2
    · simp only [Memory.within, List.all_cons, Bool.and_eq_true, decide_eq_true_eq]
      exact ⟨ha, h.2⟩
    · simpa only [Memory.within, List.all_cons, Bool.and_eq_true, decide_eq_true_eq] using h
    · simp only [Memory.within, List.all_cons, Bool.and_eq_true, decide_eq_true_eq]
      exact ⟨ha, h⟩

/-! ## Ranges of bytes -/

@[simp] theorem Memory.readN_zero (m : Memory) (a : Nat) : m.readN a 0 = [] := rfl

@[simp] theorem Memory.readN_length (m : Memory) (a n : Nat) : (m.readN a n).length = n := by
  induction n generalizing a with
  | zero => rfl
  | succ n ih => simp [Memory.readN, ih]

theorem Memory.readN_add (m : Memory) (a j n : Nat) : m.readN a (j + n) = m.readN a j ++ m.readN (a + j) n := by
  induction j generalizing a with
  | zero => simp
  | succ j ih =>
    rw [Nat.add_right_comm, Memory.readN, Memory.readN, ih]
    simp [Nat.add_comm, Nat.add_left_comm]

theorem Memory.readN_getD (m : Memory) (a n i : Nat) (hi : i < n) : (m.readN a n).getD i 0 = m.read (a + i) := by
  induction n generalizing a i with
  | zero => omega
  | succ n ih =>
    cases i with
    | zero => simp [Memory.readN]
    | succ i =>
      have h := ih (a + 1) i (by omega)
      rw [Memory.readN, List.getD_cons_succ, h]
      congr 1
      omega

theorem Memory.readN_congr {m m' : Memory} {a n : Nat} (h : ∀ x, a ≤ x → x < a + n → m.read x = m'.read x) :
    m.readN a n = m'.readN a n := by
  induction n generalizing a with
  | zero => rfl
  | succ n ih =>
    rw [Memory.readN, Memory.readN, h a (by omega) (by omega), ih fun x h1 h2 => h x (by omega) (by omega)]

@[simp] theorem Memory.writeN_nil (m : Memory) (a : Nat) : m.writeN a [] = m := rfl

theorem Memory.wf_writeN {m : Memory} (h : m.wf = true) (a : Nat) (bs : List Byte) : (m.writeN a bs).wf = true := by
  induction bs generalizing m a with
  | nil => exact h
  | cons b bs ih => exact ih (Memory.wf_write h a b) (a + 1)

theorem Memory.within_writeN {m : Memory} {size : Nat} (h : m.within size = true) (a : Nat) (bs : List Byte)
    (ha : a + bs.length ≤ size) : (m.writeN a bs).within size = true := by
  induction bs generalizing m a with
  | nil => exact h
  | cons b bs ih =>
    simp only [List.length_cons] at ha
    exact ih (Memory.within_write h a b (by omega)) (a + 1) (by omega)

/-- A write of a range changes the bytes of the range and no others. -/
theorem Memory.read_writeN {m : Memory} (h : m.wf = true) (a : Nat) (bs : List Byte) (x : Nat) :
    (m.writeN a bs).read x = if a ≤ x ∧ x < a + bs.length then bs.getD (x - a) 0 else m.read x := by
  induction bs generalizing m a with
  | nil => rw [Memory.writeN_nil, if_neg (by simp)]
  | cons b bs ih =>
    rw [Memory.writeN, ih (Memory.wf_write h a b), Memory.read_write h, List.length_cons]
    rcases Nat.lt_trichotomy x a with hx | hx | hx
    · rw [if_neg (by omega), if_neg (by omega), if_neg (by omega)]
    · subst hx
      rw [if_neg (by omega), if_pos rfl, if_pos (by omega)]
      simp
    · by_cases hin : x < a + (bs.length + 1)
      · rw [if_pos (by omega), if_pos (by omega), show x - a = (x - (a + 1)) + 1 by omega, List.getD_cons_succ]
      · rw [if_neg (by omega), if_neg (by omega), if_neg (by omega)]

theorem Memory.read_writeN_outside {m : Memory} (h : m.wf = true) (a : Nat) (bs : List Byte) {x : Nat}
    (hx : x < a ∨ a + bs.length ≤ x) : (m.writeN a bs).read x = m.read x := by
  rw [Memory.read_writeN h, if_neg (by omega)]

/-- Reading the range just written gives the bytes written. -/
theorem Memory.readN_writeN {m : Memory} (h : m.wf = true) (a : Nat) (bs : List Byte) :
    (m.writeN a bs).readN a bs.length = bs := by
  apply List.ext_getElem (by simp)
  intro i h1 h2
  have e := Memory.readN_getD (m.writeN a bs) a bs.length i h2
  rw [Memory.read_writeN h, if_pos (by omega), Nat.add_sub_cancel_left] at e
  simpa [List.getD_eq_getElem, h1, h2] using e

/-- Two canonical memories that read alike everywhere are equal. -/
theorem Memory.ext_read {m m' : Memory} {lo lo' : Nat} (h : Memory.wfFrom lo m = true) (h' : Memory.wfFrom lo' m' = true)
    (e : ∀ a, m.read a = m'.read a) : m = m' := by
  induction m generalizing lo lo' m' with
  | nil =>
    cases m' with
    | nil => rfl
    | cons c m' =>
      obtain ⟨k, v⟩ := c
      simp only [Memory.wfFrom, Bool.and_eq_true, bne_iff_ne] at h'
      have := e k
      simp [Memory.read] at this
      exact absurd this.symm h'.1.2
  | cons c m ih =>
    obtain ⟨k, v⟩ := c
    simp only [Memory.wfFrom, Bool.and_eq_true, decide_eq_true_eq, bne_iff_ne] at h
    cases m' with
    | nil =>
      have := e k
      simp [Memory.read] at this
      exact absurd this h.1.2
    | cons c' m' =>
      obtain ⟨k', v'⟩ := c'
      simp only [Memory.wfFrom, Bool.and_eq_true, decide_eq_true_eq, bne_iff_ne] at h'
      have hk : k = k' := by
        rcases Nat.lt_trichotomy k k' with hlt | heq | hlt
        · have := e k
          rw [Memory.read, if_pos rfl, Memory.read, if_neg (by omega), Memory.read_below h'.2 (by omega)] at this
          exact absurd this h.1.2
        · exact heq
        · have := e k'
          rw [Memory.read, if_neg (by omega), Memory.read_below h.2 (by omega), Memory.read, if_pos rfl] at this
          exact absurd this.symm h'.1.2
      subst hk
      have hv : v = v' := by simpa [Memory.read] using e k
      subst hv
      rw [ih h.2 h'.2]
      intro a
      by_cases ha : a ≤ k
      · rw [Memory.read_below h.2 (by omega), Memory.read_below h'.2 (by omega)]
      · have := e a
        rwa [Memory.read, if_neg (by omega), Memory.read, if_neg (by omega)] at this

end Sys2Proof.Machine
end

