-- ==== Sys2Proof/Laws/State.lean ====
section
/-! SUPPORT. One lemma per field per update of State, so that no proof unfolds a record update. -/

namespace Sys2Proof.Machine

/-! ### log -/

@[simp] theorem State.log_params (t : Transfer) (s : State) : (s.log t).params = s.params := rfl
@[simp] theorem State.log_sync (t : Transfer) (s : State) : (s.log t).sync = s.sync := rfl
@[simp] theorem State.log_framer (t : Transfer) (s : State) : (s.log t).framer = s.framer := rfl
@[simp] theorem State.log_status (t : Transfer) (s : State) : (s.log t).status = s.status := rfl
@[simp] theorem State.log_extractor (t : Transfer) (s : State) : (s.log t).extractor = s.extractor := rfl
@[simp] theorem State.log_diag (t : Transfer) (s : State) : (s.log t).diag = s.diag := rfl
@[simp] theorem State.log_cfg (t : Transfer) (s : State) : (s.log t).cfg = s.cfg := rfl
@[simp] theorem State.log_sel (t : Transfer) (s : State) : (s.log t).sel = s.sel := rfl
@[simp] theorem State.log_counters (t : Transfer) (s : State) : (s.log t).counters = s.counters := rfl
@[simp] theorem State.log_phase (t : Transfer) (s : State) : (s.log t).phase = s.phase := rfl
@[simp] theorem State.log_env (t : Transfer) (s : State) : (s.log t).env = s.env := rfl
@[simp] theorem State.log_trace (t : Transfer) (s : State) : (s.log t).trace = s.trace ++ [t] := rfl

/-! ### goto -/

@[simp] theorem State.goto_params (ph : Phase) (s : State) : (s.goto ph).params = s.params := rfl
@[simp] theorem State.goto_sync (ph : Phase) (s : State) : (s.goto ph).sync = s.sync := rfl
@[simp] theorem State.goto_framer (ph : Phase) (s : State) : (s.goto ph).framer = s.framer := rfl
@[simp] theorem State.goto_status (ph : Phase) (s : State) : (s.goto ph).status = s.status := rfl
@[simp] theorem State.goto_extractor (ph : Phase) (s : State) : (s.goto ph).extractor = s.extractor := rfl
@[simp] theorem State.goto_diag (ph : Phase) (s : State) : (s.goto ph).diag = s.diag := rfl
@[simp] theorem State.goto_cfg (ph : Phase) (s : State) : (s.goto ph).cfg = s.cfg := rfl
@[simp] theorem State.goto_sel (ph : Phase) (s : State) : (s.goto ph).sel = s.sel := rfl
@[simp] theorem State.goto_counters (ph : Phase) (s : State) : (s.goto ph).counters = s.counters := rfl
@[simp] theorem State.goto_phase (ph : Phase) (s : State) : (s.goto ph).phase = ph := rfl
@[simp] theorem State.goto_env (ph : Phase) (s : State) : (s.goto ph).env = s.env := rfl
@[simp] theorem State.goto_trace (ph : Phase) (s : State) : (s.goto ph).trace = s.trace := rfl

/-! ### event -/

@[simp] theorem State.event_params (kind : EventKind) (info : BitVec 8) (s : State) : (s.event kind info).params = s.params := rfl
@[simp] theorem State.event_sync (kind : EventKind) (info : BitVec 8) (s : State) : (s.event kind info).sync = s.sync := rfl
@[simp] theorem State.event_framer (kind : EventKind) (info : BitVec 8) (s : State) : (s.event kind info).framer = s.framer := rfl
@[simp] theorem State.event_status (kind : EventKind) (info : BitVec 8) (s : State) : (s.event kind info).status = s.status := rfl
@[simp] theorem State.event_extractor (kind : EventKind) (info : BitVec 8) (s : State) : (s.event kind info).extractor = s.extractor := rfl
@[simp] theorem State.event_diag (kind : EventKind) (info : BitVec 8) (s : State) : (s.event kind info).diag = setSticky kind s.diag := rfl
@[simp] theorem State.event_cfg (kind : EventKind) (info : BitVec 8) (s : State) : (s.event kind info).cfg = s.cfg := rfl
@[simp] theorem State.event_sel (kind : EventKind) (info : BitVec 8) (s : State) : (s.event kind info).sel = s.sel := rfl
@[simp] theorem State.event_counters (kind : EventKind) (info : BitVec 8) (s : State) : (s.event kind info).counters = countEvent s.params kind s.counters := rfl
@[simp] theorem State.event_phase (kind : EventKind) (info : BitVec 8) (s : State) : (s.event kind info).phase = s.phase := rfl
@[simp] theorem State.event_env (kind : EventKind) (info : BitVec 8) (s : State) : (s.event kind info).env = s.env := rfl
@[simp] theorem State.event_trace (kind : EventKind) (info : BitVec 8) (s : State) : (s.event kind info).trace = s.trace ++ [.event kind info] := rfl

/-! ### halt -/

@[simp] theorem State.halt_params (cause : HaltCause) (s : State) : (s.halt cause).params = s.params := rfl
@[simp] theorem State.halt_sync (cause : HaltCause) (s : State) : (s.halt cause).sync = s.sync := rfl
@[simp] theorem State.halt_framer (cause : HaltCause) (s : State) : (s.halt cause).framer = { s.framer with fsm := .halted } := rfl
@[simp] theorem State.halt_status (cause : HaltCause) (s : State) : (s.halt cause).status = { s.status with haltCause := cause } := rfl
@[simp] theorem State.halt_extractor (cause : HaltCause) (s : State) : (s.halt cause).extractor = s.extractor := rfl
@[simp] theorem State.halt_diag (cause : HaltCause) (s : State) : (s.halt cause).diag = s.diag := rfl
@[simp] theorem State.halt_cfg (cause : HaltCause) (s : State) : (s.halt cause).cfg = s.cfg := rfl
@[simp] theorem State.halt_sel (cause : HaltCause) (s : State) : (s.halt cause).sel = s.sel := rfl
@[simp] theorem State.halt_counters (cause : HaltCause) (s : State) : (s.halt cause).counters = s.counters := rfl
@[simp] theorem State.halt_phase (cause : HaltCause) (s : State) : (s.halt cause).phase = .idle := rfl
@[simp] theorem State.halt_env (cause : HaltCause) (s : State) : (s.halt cause).env = s.env := rfl
@[simp] theorem State.halt_trace (cause : HaltCause) (s : State) : (s.halt cause).trace = s.trace := rfl

/-! ### recordCc -/

@[simp] theorem State.recordCc_params (cc : Cc) (s : State) : (s.recordCc cc).params = s.params := rfl
@[simp] theorem State.recordCc_sync (cc : Cc) (s : State) : (s.recordCc cc).sync = s.sync := rfl
@[simp] theorem State.recordCc_framer (cc : Cc) (s : State) : (s.recordCc cc).framer = s.framer := rfl
@[simp] theorem State.recordCc_status (cc : Cc) (s : State) : (s.recordCc cc).status = s.status := rfl
@[simp] theorem State.recordCc_extractor (cc : Cc) (s : State) : (s.recordCc cc).extractor = ⟨true, cc⟩ := rfl
@[simp] theorem State.recordCc_diag (cc : Cc) (s : State) : (s.recordCc cc).diag = s.diag := rfl
@[simp] theorem State.recordCc_cfg (cc : Cc) (s : State) : (s.recordCc cc).cfg = s.cfg := rfl
@[simp] theorem State.recordCc_sel (cc : Cc) (s : State) : (s.recordCc cc).sel = s.sel := rfl
@[simp] theorem State.recordCc_counters (cc : Cc) (s : State) : (s.recordCc cc).counters = s.counters := rfl
@[simp] theorem State.recordCc_phase (cc : Cc) (s : State) : (s.recordCc cc).phase = s.phase := rfl
@[simp] theorem State.recordCc_env (cc : Cc) (s : State) : (s.recordCc cc).env = s.env := rfl
@[simp] theorem State.recordCc_trace (cc : Cc) (s : State) : (s.recordCc cc).trace = s.trace := rfl

/-! ### dropWindow -/

@[simp] theorem State.dropWindow_params (s : State) : s.dropWindow.params = s.params := rfl
@[simp] theorem State.dropWindow_sync (s : State) : s.dropWindow.sync = { s.sync with fill := 0, resync := false } := rfl
@[simp] theorem State.dropWindow_framer (s : State) : s.dropWindow.framer = s.framer := rfl
@[simp] theorem State.dropWindow_status (s : State) : s.dropWindow.status = s.status := rfl
@[simp] theorem State.dropWindow_extractor (s : State) : s.dropWindow.extractor = s.extractor := rfl
@[simp] theorem State.dropWindow_diag (s : State) : s.dropWindow.diag = s.diag := rfl
@[simp] theorem State.dropWindow_cfg (s : State) : s.dropWindow.cfg = s.cfg := rfl
@[simp] theorem State.dropWindow_sel (s : State) : s.dropWindow.sel = s.sel := rfl
@[simp] theorem State.dropWindow_counters (s : State) : s.dropWindow.counters = s.counters := rfl
@[simp] theorem State.dropWindow_phase (s : State) : s.dropWindow.phase = s.phase := rfl
@[simp] theorem State.dropWindow_env (s : State) : s.dropWindow.env = s.env := rfl
@[simp] theorem State.dropWindow_trace (s : State) : s.dropWindow.trace = s.trace := rfl

/-! ### countWrite -/

@[simp] theorem State.countWrite_params (s : State) : s.countWrite.params = s.params := rfl
@[simp] theorem State.countWrite_sync (s : State) : s.countWrite.sync = s.sync := rfl
@[simp] theorem State.countWrite_framer (s : State) : s.countWrite.framer = s.framer := rfl
@[simp] theorem State.countWrite_status (s : State) : s.countWrite.status = s.status := rfl
@[simp] theorem State.countWrite_extractor (s : State) : s.countWrite.extractor = s.extractor := rfl
@[simp] theorem State.countWrite_diag (s : State) : s.countWrite.diag = s.diag := rfl
@[simp] theorem State.countWrite_cfg (s : State) : s.countWrite.cfg = s.cfg := rfl
@[simp] theorem State.countWrite_sel (s : State) : s.countWrite.sel = s.sel := rfl
@[simp] theorem State.countWrite_counters (s : State) : s.countWrite.counters = { s.counters with wr := inc s.params s.counters.wr } := rfl
@[simp] theorem State.countWrite_phase (s : State) : s.countWrite.phase = s.phase := rfl
@[simp] theorem State.countWrite_env (s : State) : s.countWrite.env = s.env := rfl
@[simp] theorem State.countWrite_trace (s : State) : s.countWrite.trace = s.trace := rfl

/-! ### passTurn -/

@[simp] theorem State.passTurn_params (s : State) : s.passTurn.params = s.params := rfl
@[simp] theorem State.passTurn_sync (s : State) : s.passTurn.sync = s.sync := rfl
@[simp] theorem State.passTurn_framer (s : State) : s.passTurn.framer = s.framer := rfl
@[simp] theorem State.passTurn_status (s : State) : s.passTurn.status = s.status := rfl
@[simp] theorem State.passTurn_extractor (s : State) : s.passTurn.extractor = s.extractor := rfl
@[simp] theorem State.passTurn_diag (s : State) : s.passTurn.diag = s.diag := rfl
@[simp] theorem State.passTurn_cfg (s : State) : s.passTurn.cfg = s.cfg := rfl
@[simp] theorem State.passTurn_sel (s : State) : s.passTurn.sel = s.sel := rfl
@[simp] theorem State.passTurn_counters (s : State) : s.passTurn.counters = s.counters := rfl
@[simp] theorem State.passTurn_phase (s : State) : s.passTurn.phase = s.phase := rfl
@[simp] theorem State.passTurn_env (s : State) : s.passTurn.env = { s.env with turns := s.env.turns.tail } := rfl
@[simp] theorem State.passTurn_trace (s : State) : s.passTurn.trace = s.trace := rfl

/-! ### slideWindow -/

@[simp] theorem State.slideWindow_params (s : State) : s.slideWindow.params = s.params := by
  unfold State.slideWindow; rfl
@[simp] theorem State.slideWindow_sync (s : State) : s.slideWindow.sync = { s.sync with win := s.sync.win.writeN 0 (s.sync.win.readN 1 (tsSize - 1)), fill := tsSize - 1 } := by
  unfold State.slideWindow; rfl
@[simp] theorem State.slideWindow_framer (s : State) : s.slideWindow.framer = s.framer := by
  unfold State.slideWindow; rfl
@[simp] theorem State.slideWindow_status (s : State) : s.slideWindow.status = s.status := by
  unfold State.slideWindow; rfl
@[simp] theorem State.slideWindow_extractor (s : State) : s.slideWindow.extractor = s.extractor := by
  unfold State.slideWindow; rfl
@[simp] theorem State.slideWindow_diag (s : State) : s.slideWindow.diag = s.diag := by
  unfold State.slideWindow; rfl
@[simp] theorem State.slideWindow_cfg (s : State) : s.slideWindow.cfg = s.cfg := by
  unfold State.slideWindow; rfl
@[simp] theorem State.slideWindow_sel (s : State) : s.slideWindow.sel = s.sel := by
  unfold State.slideWindow; rfl
@[simp] theorem State.slideWindow_counters (s : State) : s.slideWindow.counters = s.counters := by
  unfold State.slideWindow; rfl
@[simp] theorem State.slideWindow_phase (s : State) : s.slideWindow.phase = s.phase := by
  unfold State.slideWindow; rfl
@[simp] theorem State.slideWindow_env (s : State) : s.slideWindow.env = s.env := by
  unfold State.slideWindow; rfl
@[simp] theorem State.slideWindow_trace (s : State) : s.slideWindow.trace = s.trace := by
  unfold State.slideWindow; rfl

/-! ### resetCore -/

@[simp] theorem State.resetCore_params (s : State) : s.resetCore.params = s.params := rfl
@[simp] theorem State.resetCore_sync (s : State) : s.resetCore.sync = State.reset.sync := rfl
@[simp] theorem State.resetCore_framer (s : State) : s.resetCore.framer = State.reset.framer := rfl
@[simp] theorem State.resetCore_status (s : State) : s.resetCore.status = State.reset.status := rfl
@[simp] theorem State.resetCore_extractor (s : State) : s.resetCore.extractor = State.reset.extractor := rfl
@[simp] theorem State.resetCore_diag (s : State) : s.resetCore.diag = State.reset.diag := rfl
@[simp] theorem State.resetCore_cfg (s : State) : s.resetCore.cfg = State.reset.cfg := rfl
@[simp] theorem State.resetCore_sel (s : State) : s.resetCore.sel = State.reset.sel := rfl
@[simp] theorem State.resetCore_counters (s : State) : s.resetCore.counters = State.reset.counters := rfl
@[simp] theorem State.resetCore_phase (s : State) : s.resetCore.phase = State.reset.phase := rfl
@[simp] theorem State.resetCore_env (s : State) : s.resetCore.env = s.env := rfl
@[simp] theorem State.resetCore_trace (s : State) : s.resetCore.trace = s.trace := rfl

/-! ### finalDone -/

@[simp] theorem State.finalDone_params (cause : CleanCause) (s : State) : (s.finalDone cause).params = s.params := rfl
@[simp] theorem State.finalDone_sync (cause : CleanCause) (s : State) : (s.finalDone cause).sync = s.sync := rfl
@[simp] theorem State.finalDone_framer (cause : CleanCause) (s : State) : (s.finalDone cause).framer = { s.framer with fsm := .halted, bufLen := 0 } := rfl
@[simp] theorem State.finalDone_status (cause : CleanCause) (s : State) : (s.finalDone cause).status = { s.status with haltCause := cleanHalt cause } := rfl
@[simp] theorem State.finalDone_extractor (cause : CleanCause) (s : State) : (s.finalDone cause).extractor = s.extractor := rfl
@[simp] theorem State.finalDone_diag (cause : CleanCause) (s : State) : (s.finalDone cause).diag = s.diag := rfl
@[simp] theorem State.finalDone_cfg (cause : CleanCause) (s : State) : (s.finalDone cause).cfg = s.cfg := rfl
@[simp] theorem State.finalDone_sel (cause : CleanCause) (s : State) : (s.finalDone cause).sel = s.sel := rfl
@[simp] theorem State.finalDone_counters (cause : CleanCause) (s : State) : (s.finalDone cause).counters = s.counters := rfl
@[simp] theorem State.finalDone_phase (cause : CleanCause) (s : State) : (s.finalDone cause).phase = .idle := rfl
@[simp] theorem State.finalDone_env (cause : CleanCause) (s : State) : (s.finalDone cause).env = s.env := rfl
@[simp] theorem State.finalDone_trace (cause : CleanCause) (s : State) : (s.finalDone cause).trace = s.trace := rfl

/-! ### startAccepted -/

@[simp] theorem State.startAccepted_params (s : State) : (startAccepted s).params = s.params := rfl
@[simp] theorem State.startAccepted_sync (s : State) : (startAccepted s).sync = s.sync := rfl
@[simp] theorem State.startAccepted_status (s : State) : (startAccepted s).status = s.status := rfl
@[simp] theorem State.startAccepted_extractor (s : State) : (startAccepted s).extractor = s.extractor := rfl
@[simp] theorem State.startAccepted_diag (s : State) : (startAccepted s).diag = s.diag := rfl
@[simp] theorem State.startAccepted_cfg (s : State) : (startAccepted s).cfg = s.cfg := rfl
@[simp] theorem State.startAccepted_counters (s : State) : (startAccepted s).counters = s.counters := rfl
@[simp] theorem State.startAccepted_phase (s : State) : (startAccepted s).phase = s.phase := rfl
@[simp] theorem State.startAccepted_env (s : State) : (startAccepted s).env = s.env := rfl
@[simp] theorem State.startAccepted_trace (s : State) : (startAccepted s).trace = s.trace := rfl

/-! ### enterResync -/

@[simp] theorem State.enterResync_params (s : State) : s.enterResync.params = s.params := by
  unfold State.enterResync; split <;> rfl
@[simp] theorem State.enterResync_framer (s : State) : s.enterResync.framer = s.framer := by
  unfold State.enterResync; split <;> rfl
@[simp] theorem State.enterResync_status (s : State) : s.enterResync.status = s.status := by
  unfold State.enterResync; split <;> rfl
@[simp] theorem State.enterResync_extractor (s : State) : s.enterResync.extractor = s.extractor := by
  unfold State.enterResync; split <;> rfl
@[simp] theorem State.enterResync_cfg (s : State) : s.enterResync.cfg = s.cfg := by
  unfold State.enterResync; split <;> rfl
@[simp] theorem State.enterResync_sel (s : State) : s.enterResync.sel = s.sel := by
  unfold State.enterResync; split <;> rfl
@[simp] theorem State.enterResync_phase (s : State) : s.enterResync.phase = s.phase := by
  unfold State.enterResync; split <;> rfl
@[simp] theorem State.enterResync_env (s : State) : s.enterResync.env = s.env := by
  unfold State.enterResync; split <;> rfl

/-! ### openGate -/

@[simp] theorem State.openGate_params (p : Packet) (s : State) : (s.openGate p).params = s.params := by
  unfold State.openGate; split <;> rfl
@[simp] theorem State.openGate_sync (p : Packet) (s : State) : (s.openGate p).sync = s.sync := by
  unfold State.openGate; split <;> rfl
@[simp] theorem State.openGate_status (p : Packet) (s : State) : (s.openGate p).status = s.status := by
  unfold State.openGate; split <;> rfl
@[simp] theorem State.openGate_extractor (p : Packet) (s : State) : (s.openGate p).extractor = s.extractor := by
  unfold State.openGate; split <;> rfl
@[simp] theorem State.openGate_diag (p : Packet) (s : State) : (s.openGate p).diag = s.diag := by
  unfold State.openGate; split <;> rfl
@[simp] theorem State.openGate_cfg (p : Packet) (s : State) : (s.openGate p).cfg = s.cfg := by
  unfold State.openGate; split <;> rfl
@[simp] theorem State.openGate_sel (p : Packet) (s : State) : (s.openGate p).sel = s.sel := by
  unfold State.openGate; split <;> rfl
@[simp] theorem State.openGate_counters (p : Packet) (s : State) : (s.openGate p).counters = s.counters := by
  unfold State.openGate; split <;> rfl
@[simp] theorem State.openGate_phase (p : Packet) (s : State) : (s.openGate p).phase = s.phase := by
  unfold State.openGate; split <;> rfl
@[simp] theorem State.openGate_env (p : Packet) (s : State) : (s.openGate p).env = s.env := by
  unfold State.openGate; split <;> rfl
@[simp] theorem State.openGate_trace (p : Packet) (s : State) : (s.openGate p).trace = s.trace := by
  unfold State.openGate; split <;> rfl

/-! ### continuity -/

@[simp] theorem State.continuity_params (p : Packet) (s : State) : (s.continuity p).params = s.params := by
  unfold State.continuity; split <;> rfl
@[simp] theorem State.continuity_sync (p : Packet) (s : State) : (s.continuity p).sync = s.sync := by
  unfold State.continuity; split <;> rfl
@[simp] theorem State.continuity_framer (p : Packet) (s : State) : (s.continuity p).framer = s.framer := by
  unfold State.continuity; split <;> rfl
@[simp] theorem State.continuity_status (p : Packet) (s : State) : (s.continuity p).status = s.status := by
  unfold State.continuity; split <;> rfl
@[simp] theorem State.continuity_cfg (p : Packet) (s : State) : (s.continuity p).cfg = s.cfg := by
  unfold State.continuity; split <;> rfl
@[simp] theorem State.continuity_sel (p : Packet) (s : State) : (s.continuity p).sel = s.sel := by
  unfold State.continuity; split <;> rfl
@[simp] theorem State.continuity_phase (p : Packet) (s : State) : (s.continuity p).phase = s.phase := by
  unfold State.continuity; split <;> rfl
@[simp] theorem State.continuity_env (p : Packet) (s : State) : (s.continuity p).env = s.env := by
  unfold State.continuity; split <;> rfl

/-! ### The parts of a group an update leaves alone -/

@[simp] theorem State.openGate_buf (p : Packet) (s : State) : (s.openGate p).framer.buf = s.framer.buf := by
  unfold State.openGate; split <;> rfl
@[simp] theorem State.openGate_bufLen (p : Packet) (s : State) : (s.openGate p).framer.bufLen = s.framer.bufLen := by
  unfold State.openGate; split <;> rfl
@[simp] theorem State.enterResync_win (s : State) : s.enterResync.sync.win = s.sync.win := by
  unfold State.enterResync; split <;> rfl
@[simp] theorem State.enterResync_fill (s : State) : s.enterResync.sync.fill = s.sync.fill := by
  unfold State.enterResync; split <;> rfl
@[simp] theorem State.enterResync_srcPos (s : State) : s.enterResync.sync.srcPos = s.sync.srcPos := by
  unfold State.enterResync; split <;> rfl
@[simp] theorem State.enterResync_resync (s : State) : s.enterResync.sync.resync = true := by
  unfold State.enterResync; split
  · assumption
  · rfl

/-! ### gateAndCheck -/

@[simp] theorem State.gateAndCheck_params (p : Packet) (s : State) : (s.gateAndCheck p).params = s.params := by simp [State.gateAndCheck]
@[simp] theorem State.gateAndCheck_sync (p : Packet) (s : State) : (s.gateAndCheck p).sync = s.sync := by simp [State.gateAndCheck]
@[simp] theorem State.gateAndCheck_status (p : Packet) (s : State) : (s.gateAndCheck p).status = s.status := by simp [State.gateAndCheck]
@[simp] theorem State.gateAndCheck_cfg (p : Packet) (s : State) : (s.gateAndCheck p).cfg = s.cfg := by simp [State.gateAndCheck]
@[simp] theorem State.gateAndCheck_sel (p : Packet) (s : State) : (s.gateAndCheck p).sel = s.sel := by simp [State.gateAndCheck]
@[simp] theorem State.gateAndCheck_env (p : Packet) (s : State) : (s.gateAndCheck p).env = s.env := by simp [State.gateAndCheck]
@[simp] theorem State.gateAndCheck_phase (p : Packet) (s : State) : (s.gateAndCheck p).phase = s.phase := by simp [State.gateAndCheck]
@[simp] theorem State.gateAndCheck_framer (p : Packet) (s : State) : (s.gateAndCheck p).framer = (s.openGate p).framer := by
  simp [State.gateAndCheck]

end Sys2Proof.Machine
end

