-- ==== Sys2Proof/Laws/Ops.lean ====
section
/-! SUPPORT. One lemma per shared operation that says what it can do; provers cite these and do not unfold the
operations. -/

namespace Sys2Proof.Machine

/-! ## MemRead, MemWrite -/

theorem memRead_eq_some {sp : Space} {addr n : Nat} {s : State} {v : List Byte} :
    memRead sp addr n s = some v ↔ addr + n ≤ sp.size s.params ∧ v = (s.space sp).readN addr n := by
  unfold memRead; split <;> simp_all [eq_comm]

theorem memWrite_eq_some {sp : Space} {addr : Nat} {v : List Byte} {s : State} {m : Memory} :
    memWrite sp addr v s = some m ↔ addr + v.length ≤ sp.size s.params ∧ m = (s.space sp).writeN addr v := by
  unfold memWrite; split <;> simp_all [eq_comm]

/-! ## The named constants in numbers (R10) -/

theorem Params.chunkSize_ge {k : Params} (h : k.ok) : 187 ≤ k.chunkSize := h.1

theorem Params.bufCap_eq (k : Params) : k.bufCap = k.chunkSize + 186 := rfl

theorem inBounds_iff (start : Int) : inBounds start = true ↔ 0 ≤ start ∧ start ≤ 188 := by
  simp [inBounds, tsSize]

/-! ## Counters and events -/

theorem inc_fits (k : Params) (c : Nat) : inc k c < 2 ^ k.cntW := Nat.mod_lt _ (Nat.two_pow_pos _)

/-- A counter that counts `n` things modulo 2^CNT_W counts `n + 1` after `inc`. -/
theorem inc_mod (k : Params) (n : Nat) : inc k (n % 2 ^ k.cntW) = (n + 1) % 2 ^ k.cntW := by
  simp [inc, Nat.add_mod]

/-- Away from the top of its range `inc` adds one. -/
theorem inc_of_lt {k : Params} {c : Nat} (h : c + 1 < 2 ^ k.cntW) : inc k c = c + 1 := Nat.mod_eq_of_lt h

@[simp] theorem countEvent_pktRead (k : Params) (e : EventKind) (c : CounterState) :
    (countEvent k e c).pktRead = c.pktRead := by cases e <;> rfl
@[simp] theorem countEvent_pktFwd (k : Params) (e : EventKind) (c : CounterState) :
    (countEvent k e c).pktFwd = c.pktFwd := by cases e <;> rfl
@[simp] theorem countEvent_wr (k : Params) (e : EventKind) (c : CounterState) :
    (countEvent k e c).wr = c.wr := by cases e <;> rfl

/-! ## Into HALTED -/

/-- `raise Halt(cause)` always answers next: FSM, HALT_CAUSE and the end of the operation, nothing else. -/
@[simp] theorem raiseHalt_eq (cause : HaltCause) (s : State) :
    raiseHalt cause s = .next { s with
      framer := { s.framer with fsm := .halted }, status := { s.status with haltCause := cause }, phase := .idle } := rfl

/-! ## The packet steps -/

/-- What `continuity` can do: record the counter, and before that raise CC_DISC exactly on a discontinuity. -/
theorem continuity_cases (p : Packet) (s : State) :
    (discontinuity s.extractor p.continuityCounter = true ∧
      s.continuity p =
        (s.event .ccDisc (ccInfo s.extractor.lastCc p.continuityCounter)).recordCc p.continuityCounter) ∨
    (discontinuity s.extractor p.continuityCounter = false ∧ s.continuity p = s.recordCc p.continuityCounter) := by
  unfold State.continuity
  by_cases h : discontinuity s.extractor p.continuityCounter = true
  · exact .inl ⟨h, by simp [h]⟩
  · exact .inr ⟨by simpa using h, by simp [h]⟩

@[simp] theorem continuity_extractor (p : Packet) (s : State) :
    (s.continuity p).extractor = ⟨true, p.continuityCounter⟩ := by
  unfold State.continuity; split <;> rfl

@[simp] theorem gateAndCheck_extractor (p : Packet) (s : State) : (s.gateAndCheck p).extractor = ⟨true, p.continuityCounter⟩ := by
  simp [State.gateAndCheck]

/-- What the gate can do: nothing, or move AWAITING_SYNC to STREAMING. -/
theorem openGate_cases (p : Packet) (s : State) :
    ((s.sel.mode = .ni ∧ s.framer.fsm = .awaitingSync ∧ p.qualifies = true) ∧
      s.openGate p = { s with framer := { s.framer with fsm := .streaming } }) ∨
    (¬ (s.sel.mode = .ni ∧ s.framer.fsm = .awaitingSync ∧ p.qualifies = true) ∧ s.openGate p = s) := by
  unfold State.openGate; split
  · exact .inl ⟨‹_›, rfl⟩
  · exact .inr ⟨‹_›, rfl⟩

/-- What forwarding can do: hand over the span, or halt with BOUNDS. -/
theorem handOver_cases (p : Packet) (start : Int) (s : State) :
    (0 ≤ start ∧ start ≤ 188 ∧ handOver p start s = .next { s with
      counters := { s.counters with pktFwd := inc s.params s.counters.pktFwd }, phase := .absorb (spanFrom p start) }) ∨
    ((start < 0 ∨ 188 < start) ∧ handOver p start s = raiseHalt .bounds s) := by
  unfold handOver
  by_cases h : inBounds start = true
  · rw [if_pos h]
    simp only [inBounds, Bool.and_eq_true, decide_eq_true_eq] at h
    exact .inl ⟨h.1, h.2, rfl⟩
  · rw [if_neg h]
    simp only [inBounds, Bool.and_eq_true, decide_eq_true_eq, not_and_or, not_le] at h
    exact .inr ⟨h, rfl⟩

/-- The span runs to the end of the packet. -/
theorem spanFrom_length {p : Packet} (hp : p.length = 188) {start : Int} (h0 : 0 ≤ start) (h1 : start ≤ 188) :
    ((spanFrom p start).length : Int) = 188 - start := by
  simp only [spanFrom, List.length_drop, hp]; omega

/-! ## The sink -/

@[simp] theorem deliveredOf_append (t u : List Transfer) : deliveredOf (t ++ u) = deliveredOf t ++ deliveredOf u := by
  induction t with
  | nil => rfl
  | cons x t ih =>
    cases x with
    | sink bytes r => cases r <;> simp [deliveredOf, ih]
    | _ => simpa [deliveredOf] using ih

/-- One beat per byte, in order. -/
theorem sinkBeats_bytes (v : List Byte) : (sinkBeats v).map Prod.fst = v := by
  fun_induction sinkBeats v <;> simp_all

/-! ## The trace and the observation of a run -/

/-- RESET begins a new run; every other transfer belongs to the run under way. -/
@[simp] theorem sinceReset_concat (ts : List Transfer) (t : Transfer) :
    sinceReset (ts ++ [t]) = if t.isReset then [] else sinceReset ts ++ [t] := by
  by_cases h : t.isReset = true <;> simp [sinceReset, h]

@[simp] theorem Transfer.isReset_regRead (addr : BitVec 8) (rdata : Word) : (Transfer.regRead addr rdata).isReset = false := rfl
@[simp] theorem Transfer.isReset_source (w : BitVec 10) : (Transfer.source w).isReset = false := rfl
@[simp] theorem Transfer.isReset_event (kind : EventKind) (info : BitVec 8) : (Transfer.event kind info).isReset = false := rfl
@[simp] theorem Transfer.isReset_sink (bytes : List Byte) (r : Response) : (Transfer.sink bytes r).isReset = false := rfl

/-- What one more transfer does to the output of the run. -/
theorem State.delivered_concat {s t : State} {x : Transfer} (h : t.trace = s.trace ++ [x]) :
    t.delivered = if x.isReset then [] else s.delivered ++ deliveredOf [x] := by
  rw [State.delivered, h, sinceReset_concat]
  split
  · rfl
  · rw [deliveredOf_append, State.delivered]

/-- An event delivers nothing. -/
@[simp] theorem State.event_delivered (kind : EventKind) (info : BitVec 8) (s : State) :
    (s.event kind info).delivered = s.delivered := by
  simp [State.delivered_concat (State.event_trace kind info s), deliveredOf]

@[simp] theorem transactionsOf_append (ts us : List Transfer) :
    transactionsOf (ts ++ us) = transactionsOf ts ++ transactionsOf us := List.filterMap_append ..

@[simp] theorem eventsOf_append (ts us : List Transfer) : eventsOf (ts ++ us) = eventsOf ts ++ eventsOf us :=
  List.filterMap_append ..

@[simp] theorem symbolsConsumed_append (ts us : List Transfer) :
    symbolsConsumed (ts ++ us) = symbolsConsumed ts + symbolsConsumed us := List.countP_append ..


theorem State.running_iff (s : State) : s.running = true ↔ s.framer.fsm = .awaitingSync ∨ s.framer.fsm = .streaming := by
  simp [State.running]

end Sys2Proof.Machine
end

