-- ==== Sys2Proof/Laws/PerInstr.lean ====
section
/-! SUPPORT. Per-instruction families: for every operation, the format of its encoding is the one of its row in R110. -/

namespace Sys2Proof.Laws

/-- The formats of R110. -/
inductive Format where
  | reg
  | sym
  | tsh
  | internal
  | rsp
deriving DecidableEq, Repr

/-- The column "format" of R110. -/
def rowFormat : Instr → Format
  | .hostReset => .reg
  | .hostStart => .reg
  | .hostCfgwrPid _ => .reg
  | .hostCfgwrOffset _ => .reg
  | .hostCfgwrCtrl _ => .reg
  | .hostRd _ => .reg
  | .srcByte _ => .sym
  | .srcEos => .sym
  | .srcErr => .sym
  | .winValid _ => .tsh
  | .winInvalid _ => .tsh
  | .pktDrop _ => .tsh
  | .pktSkip _ => .tsh
  | .pktFwdTei _ => .tsh
  | .pktFwdPos _ => .tsh
  | .pktFwdNeg _ => .tsh
  | .pktBounds _ => .tsh
  | .frmNaAppend _ => .internal
  | .frmNaFlush => .internal
  | .frmNiWrite _ => .internal
  | .frmFinal _ => .internal
  | .snkOk => .rsp
  | .snkFail => .rsp

/-- The format a word is in; `rst` stands for the RESET access (R121), a packet for its header word (R113). -/
def wordFormat : PortWord → Format
  | .rst => .reg
  | .reg _ _ _ => .reg
  | .sym _ => .sym
  | .tsh _ => .tsh
  | .tsp _ => .tsh
  | .frm _ => .internal
  | .rsp _ => .rsp

/-- The encoding of an operation is in the format its row gives. -/
def EncodedFormat.Statement (i : Instr) : Prop := wordFormat (encode i) = rowFormat i

theorem EncodedFormat.hostReset : EncodedFormat.Statement .hostReset := rfl
theorem EncodedFormat.hostStart : EncodedFormat.Statement .hostStart := rfl
theorem EncodedFormat.hostCfgwrPid (w : Word) : EncodedFormat.Statement (.hostCfgwrPid w) := rfl
theorem EncodedFormat.hostCfgwrOffset (w : Word) : EncodedFormat.Statement (.hostCfgwrOffset w) := rfl
theorem EncodedFormat.hostCfgwrCtrl (w : Word) : EncodedFormat.Statement (.hostCfgwrCtrl w) := rfl
theorem EncodedFormat.hostRd (a : BitVec 8) : EncodedFormat.Statement (.hostRd a) := rfl
theorem EncodedFormat.srcByte (b : Byte) : EncodedFormat.Statement (.srcByte b) := rfl
theorem EncodedFormat.srcEos : EncodedFormat.Statement .srcEos := rfl
theorem EncodedFormat.srcErr : EncodedFormat.Statement .srcErr := rfl
theorem EncodedFormat.winValid (h : BitVec 32) : EncodedFormat.Statement (.winValid h) := rfl
theorem EncodedFormat.winInvalid (h : BitVec 32) : EncodedFormat.Statement (.winInvalid h) := rfl
theorem EncodedFormat.pktDrop (p : Packet) : EncodedFormat.Statement (.pktDrop p) := rfl
theorem EncodedFormat.pktSkip (p : Packet) : EncodedFormat.Statement (.pktSkip p) := rfl
theorem EncodedFormat.pktFwdTei (p : Packet) : EncodedFormat.Statement (.pktFwdTei p) := rfl
theorem EncodedFormat.pktFwdPos (p : Packet) : EncodedFormat.Statement (.pktFwdPos p) := rfl
theorem EncodedFormat.pktFwdNeg (p : Packet) : EncodedFormat.Statement (.pktFwdNeg p) := rfl
theorem EncodedFormat.pktBounds (p : Packet) : EncodedFormat.Statement (.pktBounds p) := rfl
theorem EncodedFormat.frmNaAppend (v : List Byte) : EncodedFormat.Statement (.frmNaAppend v) := rfl
theorem EncodedFormat.frmNaFlush : EncodedFormat.Statement .frmNaFlush := rfl
theorem EncodedFormat.frmNiWrite (v : List Byte) : EncodedFormat.Statement (.frmNiWrite v) := rfl
theorem EncodedFormat.frmFinal (c : CleanCause) : EncodedFormat.Statement (.frmFinal c) := rfl
theorem EncodedFormat.snkOk : EncodedFormat.Statement .snkOk := rfl
theorem EncodedFormat.snkFail : EncodedFormat.Statement .snkFail := rfl

end Sys2Proof.Laws
end

