-- ==== Sys2Proof/Laws/Step.lean ====
section
/-! SUPPORT. What a fetch and a step can do, said once: the inversion lemmas every claim about a step starts from. -/

namespace Sys2Proof.Machine

/-- The state after the host has moved. -/
def afterHost (s : State) (x : HostInput) (xs : List HostInput) : State :=
  { s with env := { s.env with host := xs, turns := s.env.turns.tail }, trace := s.trace ++ (hostWord x).2 }

/-- The state after a source symbol has been consumed. -/
def afterSource (s : State) (v : BitVec 10) (vs : List (BitVec 10)) : State :=
  { s with env := { s.env with source := vs, turns := s.env.turns.tail }, trace := s.trace ++ [.source v] }

/-- The state after an answer has been taken. -/
def afterAnswer (s : State) (vs : List (BitVec 1)) : State := { s with env := { s.env with answers := vs } }

/-- The state after a RESET has been taken under a stalled sink. -/
def afterStalled (s : State) (x : HostInput) (xs : List HostInput) : State :=
  { s with env := { s.env with host := xs }, trace := s.trace ++ (hostWord x).2 }

/-- A host input that is a RESET selects HOST.RESET, and its transfer is one that performs RESET. -/
theorem hostWord_reset {x : HostInput} (h : x.isReset = true) (c : ClassCtx) :
    decode c (hostWord x).1 = .ok .hostReset ∧ ∃ t : Transfer, (hostWord x).2 = [t] ∧ t.isReset = true := by
  cases x with
  | rst => exact ⟨rfl, .rst, rfl, rfl⟩
  | access we addr wdata =>
    simp only [HostInput.isReset, Bool.and_eq_true, beq_iff_eq] at h
    obtain ⟨⟨rfl, rfl⟩, hw⟩ := h
    exact ⟨by simp [hostWord, decode, decodeReg, hw], .regWrite 0x00 wdata, rfl, by simp [Transfer.isReset, hw]⟩

/-- What a stalled sink lets through: a RESET at the head of the host's inputs, nothing else. -/
theorem fetchStalled_cases (s : State) :
    (∃ x xs, s.env.host = x :: xs ∧ x.isReset = true ∧ fetchStalled s = .word (hostWord x).1 (afterStalled s x xs)) ∨
    ((∀ x xs, s.env.host = x :: xs → x.isReset = false) ∧ fetchStalled s = .wait s) := by
  unfold fetchStalled
  cases h : s.env.host with
  | nil => exact .inr ⟨by simp, rfl⟩
  | cons x xs =>
    by_cases hr : x.isReset = true
    · exact .inl ⟨x, xs, rfl, hr, by simp only [hr, if_true, fetchHost, h, afterStalled]⟩
    · exact .inr ⟨by simpa using hr, by simp [hr]⟩

/-- The invariant's offset range in numbers (R34, R131). -/
theorem Inv.offset_range {s : State} (h : Inv s) :
    -3 ≤ s.sel.offset.toInt ∧ s.sel.offset.toInt ≤ 183 ∧ (s.sel.mode = .ni → s.sel.offset.toInt = 4) :=
  ⟨h.selRange.1, h.selRange.2, h.selNi⟩

/-- A wait changes nothing, or uses up a turn. -/
theorem fetch_wait {s s1 : State} (h : fetch s = .wait s1) : s1 = s ∨ (s.phase = .idle ∧ s1 = s.passTurn) := by
  unfold fetch at h
  split at h
  · rename_i hp
    right; refine ⟨hp, ?_⟩
    unfold fetchInput at h
    split at h
    · unfold fetchHost at h; split at h <;> simp_all
    · unfold fetchSource at h; split at h
      · split at h <;> simp_all
      · simp_all
  all_goals try (cases h)
  unfold fetchAnswer at h
  split at h
  · obtain ⟨_, _, _, _, e⟩ | ⟨_, e⟩ := fetchStalled_cases s <;> rw [e] at h <;> cases h
    exact .inl rfl
  · cases h

/-- Where a fetched word can come from. -/
theorem fetch_word {s s1 : State} {w : PortWord} (h : fetch s = .word w s1) :
    (s.phase = .idle ∧ ∃ x xs, s.env.host = x :: xs ∧ w = (hostWord x).1 ∧ s1 = afterHost s x xs) ∨
    (s.phase = .idle ∧ s.running = true ∧ ∃ v vs, s.env.source = v :: vs ∧ w = .sym v ∧ s1 = afterSource s v vs) ∨
    (s.phase = .window ∧ w = .tsh (windowHeader s.sync.win) ∧ s1 = s) ∨
    (∃ p, s.phase = .packet p ∧ w = .tsp p ∧ s1 = s) ∨
    (∃ span, s.phase = .absorb span ∧ w = .frm (.absorb span) ∧ s1 = s) ∨
    (s.phase = .drain ∧ w = .frm .flush ∧ s1 = s) ∨
    (∃ cause, s.phase = .final cause ∧ w = .frm (.terminate cause) ∧ s1 = s) ∨
    (∃ caller bytes, s.phase = .sink caller bytes ∧ ∃ v vs, s.env.answers = v :: vs ∧ w = .rsp v ∧ s1 = afterAnswer s vs) ∨
    (∃ caller bytes, s.phase = .sink caller bytes ∧ s.env.answers = [] ∧ ∃ x xs, s.env.host = x :: xs ∧ x.isReset = true ∧
      w = (hostWord x).1 ∧ s1 = afterStalled s x xs) := by
  unfold fetch at h
  split at h
  · rename_i hp
    unfold fetchInput at h
    split at h
    · unfold fetchHost at h
      split at h
      · cases h
      · rename_i x xs hx
        simp only [State.passTurn_env, State.passTurn_trace] at hx h
        left
        cases h
        exact ⟨hp, x, xs, hx, rfl, rfl⟩
    · unfold fetchSource at h
      split at h
      · rename_i hr
        split at h
        · cases h
        · rename_i v vs hx
          simp only [State.passTurn_env, State.passTurn_trace] at hx h
          right; left
          cases h
          exact ⟨hp, hr, v, vs, hx, rfl, rfl⟩
      · cases h
  · cases h; simp_all
  · cases h; simp_all
  · cases h; simp_all
  · cases h; simp_all
  · cases h; simp_all
  · rename_i caller bytes hp
    unfold fetchAnswer at h
    split at h
    · rename_i ha
      obtain ⟨x, xs, hx, hr, e⟩ | ⟨_, e⟩ := fetchStalled_cases s <;> rw [e] at h <;> cases h
      right; right; right; right; right; right; right; right
      exact ⟨caller, bytes, hp, ha, x, xs, hx, hr, rfl, rfl⟩
    · rename_i v vs hx
      cases h
      right; right; right; right; right; right; right; left
      exact ⟨caller, bytes, hp, v, vs, hx, rfl, rfl⟩

/-- What a step that answers next did. -/
theorem step_next {s s' : State} (h : step s = .next s') :
    fetch s = .wait s' ∨
    (∃ w s1 i, fetch s = .word w s1 ∧ decode s1.ctx w = .ok i ∧ exec i s1 = .next s') ∨
    (∃ w, fetch s = .word w s' ∧ decode s'.ctx w = .error .noEffectWrite) := by
  unfold step at h
  split at h
  · rename_i s1 hf; cases h; exact .inl hf
  · rename_i w s1 hf
    split at h
    · rename_i i hd; exact .inr (.inl ⟨w, s1, i, hf, hd, h⟩)
    · rename_i e hd
      cases e
      · cases h; exact .inr (.inr ⟨w, hf, hd⟩)
      · cases h
      · cases h

/-- A word that selects an operation runs it. -/
theorem step_of_decode {s s1 : State} {w : PortWord} {i : Instr} (hf : fetch s = .word w s1)
    (hd : decode s1.ctx w = .ok i) : step s = exec i s1 := by
  simp only [step, hf, hd]

end Sys2Proof.Machine
end

