-- ==== Sys2Proof/Tests/Slice0.lean ====
section
/-! SUPPORT. Tests with results taken from the spec's rules and vectors (`95_test_vectors.md`), the smoke test of WellFormed,
and for every statement with hypotheses a witness that meets them. -/

namespace Sys2Proof.Tests

set_option Elab.async false

open Sys2Proof.Machine

/-! ## Helpers -/

/-- A packet `47 b1 b2 b3 b4` with the body `inc(0)` of R109 from byte 5 on: byte i is i. -/
def pkt (b1 b2 b3 b4 : Byte) : Packet := [0x47, b1, b2, b3, b4] ++ (List.range 183).map fun i => BitVec.ofNat 8 (i + 5)

/-- The state an outcome goes on in. -/
def nextOf : Host.Outcome State Fault Refusal → Option State
  | .next s => some s
  | _ => none

/-- A field of the state after an operation. -/
def after {α : Type} (i : Instr) (s : State) (f : State → α) : Option α := (nextOf (exec i s)).map f

/-- A field of the state after a step. -/
def stepped {α : Type} (s : State) (f : State → α) : Option α := (nextOf (step s)).map f

/-- What a port word decodes to. -/
def decoded (c : ClassCtx) (w : PortWord) : Option Instr := (decode c w).toOption

/-- Reset with another configuration. -/
def withCfg (pid ofs : BitVec 16) (m : Mode) (expl : Bool) : State := { State.reset with cfg := ⟨pid, ofs, m, expl⟩ }

/-- An ETI-NA run just begun, with the given latched offset. -/
def runNa (ofs : BitVec 9) : State :=
  { State.reset with framer := { State.reset.framer with fsm := .streaming }, sel := ⟨0x426, ofs, .na⟩ }

/-- An ETI-NI run just begun (gate closed), or past the gate. -/
def runNi (fsm : Fsm) : State := { State.reset with framer := { State.reset.framer with fsm := fsm }, sel := ⟨0x426, 4, .ni⟩ }

/-- A run that has ended at the end of the stream. -/
def ended : State :=
  { State.reset with
    framer := { State.reset.framer with fsm := .halted }, status := { State.reset.status with haltCause := .endOfStream } }

/-- The decoder's context of a state, by its mode and offset. -/
def ctx (ofs : BitVec 9) (m : Mode) (fsm : Fsm) : ClassCtx := ⟨{}, 0x426, ofs, m, fsm⟩

/-! ## WellFormed: an ill-formed term for each check -/

theorem test_wf_winValid : (Instr.winValid 0x46042610).wellFormed = false := by decide
theorem test_wf_winInvalid : (Instr.winInvalid 0x47042610).wellFormed = false := by decide
theorem test_wf_pktDrop_short : (Instr.pktDrop [0x47, 0x04, 0x26, 0x10]).wellFormed = false := by decide
theorem test_wf_pktDrop_sync : (Instr.pktDrop (0x46 :: (pkt 0x04 0x26 0x10 4).tail)).wellFormed = false := by decide +kernel
theorem test_wf_pktSkip : (Instr.pktSkip (pkt 0x44 0x26 0x10 4)).wellFormed = false := by decide +kernel
theorem test_wf_pktFwdTei : (Instr.pktFwdTei (pkt 0x04 0x26 0x10 4)).wellFormed = false := by decide +kernel
theorem test_wf_pktFwdPos : (Instr.pktFwdPos (pkt 0x84 0x26 0x10 4)).wellFormed = false := by decide +kernel
theorem test_wf_pktFwdNeg : (Instr.pktFwdNeg (pkt 0x84 0x26 0x10 4)).wellFormed = false := by decide +kernel
theorem test_wf_pktBounds : (Instr.pktBounds (pkt 0x84 0x26 0x30 4)).wellFormed = false := by decide +kernel
theorem test_wf_frmNaAppend : (Instr.frmNaAppend (List.replicate 188 0)).wellFormed = false := by decide +kernel
theorem test_wf_frmNiWrite : (Instr.frmNiWrite (List.replicate 185 0)).wellFormed = false := by decide +kernel
theorem test_wf_longest :
    (Instr.frmNaAppend (List.replicate 187 0)).wellFormed = true ∧
    (Instr.frmNiWrite (List.replicate 184 0)).wellFormed = true := by decide +kernel

/-! ## Decoding: words written out from R99, R100, R101, R102, R113 -/

theorem test_decode_hostReset : decodeTableWord 16 0b10000000010 = some .hostReset := by decide
theorem test_decode_reset_wins : decodeTableWord 16 0b10000000011 = some .hostReset := by decide
theorem test_decode_hostStart : decodeTableWord 16 0b10000000001 = some .hostStart := by decide
theorem test_decode_hostCfgwrPid : decodeTableWord 16 0b10000100001 = some (.hostCfgwrPid 1) := by decide
theorem test_decode_hostCfgwrOffset : decodeTableWord 16 0b10001000010 = some (.hostCfgwrOffset 2) := by decide
theorem test_decode_hostCfgwrCtrl : decodeTableWord 16 0b10001100011 = some (.hostCfgwrCtrl 3) := by decide
theorem test_decode_hostRd : decode tableCtx (.reg false 0b00101000 0) = .ok (.hostRd 0x28) := rfl
theorem test_decode_hostRd_word : decodeTableWord 16 0b01100000000 = some (.hostRd 0xC0) := by decide
theorem test_decode_readOnly : decode tableCtx (.reg true 0x28 1) = .error .noEffectWrite := rfl
theorem test_decode_srcByte : decodeTableWord 16 0b0001000111 = some (.srcByte 0x47) := by decide
theorem test_decode_srcEos : decodeTableWord 16 0b0100000000 = some .srcEos := by decide
theorem test_decode_srcErr : decodeTableWord 16 0b1000000000 = some .srcErr := by decide
theorem test_decode_reserved : decode tableCtx (.sym 0b1100000000) = .error .reservedSymbol := rfl
theorem test_decode_winValid : decodeTableWord 32 0x47042613 = some (.winValid 0x47042613) := by decide
theorem test_decode_winInvalid : decodeTableWord 32 0x46042613 = some (.winInvalid 0x46042613) := by decide
theorem test_decode_snkOk : decodeTableWord 8 0 = some .snkOk := by decide
theorem test_decode_snkFail : decodeTableWord 8 1 = some .snkFail := by decide

/-! The packet classes, by their headers (R111): the headers of V-X, of program P3 and of the selection vectors. -/

theorem test_decode_pktDrop :
    decoded (ctx 12 .na .streaming) (.tsp (pkt 0x04 0x27 0x10 4)) = some (.pktDrop (pkt 0x04 0x27 0x10 4)) := by decide +kernel
theorem test_decode_pktSkip :
    decoded (ctx 4 .ni .awaitingSync) (.tsp (pkt 0xC4 0x26 0x11 4)) = some (.pktSkip (pkt 0xC4 0x26 0x11 4)) := by decide +kernel
theorem test_decode_pktFwdTei :
    decoded (ctx 12 .na .streaming) (.tsp (pkt 0x84 0x26 0x20 0)) = some (.pktFwdTei (pkt 0x84 0x26 0x20 0)) := by decide +kernel
theorem test_decode_pktFwdPos :
    decoded (ctx 12 .na .streaming) (.tsp (pkt 0x04 0x26 0x30 171)) = some (.pktFwdPos (pkt 0x04 0x26 0x30 171)) := by decide +kernel
theorem test_decode_pktFwdNeg :
    decoded (ctx 0x1FD .na .streaming) (.tsp (pkt 0x00 0x01 0x30 255)) = some (.pktFwdNeg (pkt 0x00 0x01 0x30 255)) := by decide +kernel
theorem test_decode_pktBounds :
    decoded (ctx 12 .na .streaming) (.tsp (pkt 0x04 0x26 0x30 172)) = some (.pktBounds (pkt 0x04 0x26 0x30 172)) := by decide +kernel
theorem test_decode_frmNaAppend : decode (ctx 12 .na .streaming) (.frm (.absorb [1])) = .ok (.frmNaAppend [1]) := rfl
theorem test_decode_frmNiWrite : decode (ctx 4 .ni .streaming) (.frm (.absorb [1])) = .ok (.frmNiWrite [1]) := rfl
theorem test_decode_frmNaFlush : decode (ctx 12 .na .streaming) (.frm .flush) = .ok .frmNaFlush := rfl
theorem test_decode_frmFinal :
    decode (ctx 12 .na .streaming) (.frm (.terminate .shortRead)) = .ok (.frmFinal .shortRead) := rfl

/-! Header fields: V-H3, V-H6, V-H8, V-H9, V-H12. -/

theorem test_fields_flags :
    (pkt 0xC4 0x26 0x11 4).transportError = true ∧ (pkt 0xC4 0x26 0x11 4).unitStart = true ∧
    (pkt 0xE0 0x00 0xD0 4).pid = 0 := by decide +kernel
theorem test_fields_misframed :
    (pkt 0x47 0x04 0x26 0x10).pid = 0x0704 ∧ (pkt 0x47 0x04 0x26 0x10).afc = 2 ∧
    (pkt 0x47 0x04 0x26 0x10).continuityCounter = 6 := by decide +kernel
theorem test_payload_offset :
    (pkt 0x04 0x26 0x31 7).payloadOffset {} = 12 ∧ (pkt 0x04 0x26 0x3F 255).payloadOffset {} = 260 ∧
    (pkt 0x04 0x26 0x25 0).payloadOffset {} = 188 ∧ (pkt 0x04 0x26 0x13 4).payloadOffset {} = 4 := by decide +kernel

/-! ## One step, one field: the host operations (V-C) -/

theorem test_reset_status : readReg 0x28 State.reset = 0 ∧ readReg 0x20 State.reset = 0x000C0426 := by decide
theorem test_hostReset : after .hostReset ended (readReg 0x28) = some 0 := by decide
/-- V-C13, V-C22. -/
theorem test_hostStart_rejected : after .hostStart (withCfg 0x426 10 .ni true) (readReg 0x28) = some 0x03000413 := by decide
/-- V-C8, V-C11, V-C23. -/
theorem test_hostStart_accepted :
    after .hostStart (withCfg 0x426 0xFFFD .na true) (readReg 0x20) = some 0x01FD0426 ∧
    after .hostStart (withCfg 0x426 12 .ni false) (readReg 0x20) = some 0x100040426 := by decide
/-- V-C4: 0xFFFF written is -1. -/
theorem test_hostCfgwrPid : after (.hostCfgwrPid 0x1FFFF) State.reset (fun t => t.cfg.pid.toInt) = some (-1) := by decide
/-- V-C18. -/
theorem test_hostCfgwrPid_ignored : after (.hostCfgwrPid 0x100) (runNa 12) (readReg 0x08) = some 0x426 := by decide
theorem test_hostCfgwrOffset : after (.hostCfgwrOffset 0xFFFD) State.reset (fun t => t.cfg.offset.toInt) = some (-3) := by decide
theorem test_hostCfgwrCtrl : after (.hostCfgwrCtrl 3) State.reset (readReg 0x18) = some 3 := by decide
/-- V-C24. -/
theorem test_hostRd :
    after (.hostRd 0x80) (runNa 12) (·.trace) = some [.regRead 0x80 0] ∧
    after (.hostRd 0x28) (runNa 12) (·.trace) = some [.regRead 0x28 2] := by decide

/-! ## Source and window (V-S) -/

/-- The byte that fills the window makes the evaluation due. -/
theorem test_srcByte :
    after (.srcByte 0xBB) { runNa 12 with sync := ⟨[], 187, false, 187⟩ } (fun t => (t.sync.win, t.sync.fill, t.sync.srcPos, t.phase)) =
      some ([(187, 0xBB)], 188, 188, .window) := by decide
/-- V-S8: 100 bytes, then EOS. -/
theorem test_srcEos_short :
    after .srcEos { runNa 12 with sync := ⟨[(0, 0x47)], 100, false, 100⟩ } (fun t => (t.sync.fill, t.phase)) =
      some (0, .final .shortRead) := by decide
/-- V-S7. -/
theorem test_srcEos_clean : after .srcEos (runNa 12) (·.phase) = some (.final .endOfStream) := by decide
/-- V-S10. -/
theorem test_srcErr :
    after .srcErr { runNa 12 with sync := ⟨[(0, 0x47)], 10, false, 198⟩ } (fun t => (t.sync.fill, t.phase)) =
      some (0, .final .readError) := by decide
theorem test_winValid :
    after (.winValid 0x47000001) { runNa 12 with sync := ⟨[(0, 0x47), (3, 1)], 188, true, 188⟩, phase := .window }
      (fun t => (t.sync.resync, t.sync.fill, t.counters.pktRead)) = some (false, 0, 1) := by decide +kernel
theorem test_winInvalid :
    after (.winInvalid 0x00470000) { runNa 12 with sync := ⟨[(1, 0x47), (187, 9)], 188, false, 188⟩, phase := .window }
      (fun t => (t.sync.win, t.sync.resync, t.sync.fill, t.trace)) =
      some ([(0, 0x47), (186, 9), (187, 9)], true, 187, [.event .syncLoss 0]) := by decide +kernel
theorem test_winInvalid_again :
    after (.winInvalid 0) { runNa 12 with sync := ⟨[], 188, true, 188⟩, phase := .window } (·.trace) = some [] := by decide +kernel

/-! ## Packets (V-X, V-K, program P3) -/

/-- The length and the first three bytes of the span handed to the framer, and the number of packets forwarded. -/
def spanOf (i : Instr) (s : State) : Option (Nat × List Byte × Nat) :=
  match nextOf (exec i s) with
  | some t =>
    match t.phase with
    | .absorb span => some (span.length, span.take 3, t.counters.pktFwd)
    | _ => none
  | none => none

theorem test_pktDrop : after (.pktDrop (pkt 0x04 0x27 0x10 4)) (runNa 12) (· == runNa 12) = some true := by decide +kernel
theorem test_pktSkip :
    after (.pktSkip (pkt 0x04 0x26 0x10 4)) (runNi .awaitingSync) (· == runNi .awaitingSync) = some true := by decide +kernel
/-- V-X16. -/
theorem test_pktFwdTei_span :
    spanOf (.pktFwdTei (pkt 0x84 0x26 0x30 200)) (runNa 12) = some (184, [0xC8, 0x05, 0x06], 1) := by decide +kernel
theorem test_pktFwdTei_event :
    after (.pktFwdTei (pkt 0x84 0x26 0x13 4)) (runNa 12) (fun t => (t.trace, t.counters.tei, t.extractor.lastCc)) =
      some ([.event .tei 0], 1, 3) := by decide +kernel
/-- V-X5. -/
theorem test_pktFwdPos_span :
    spanOf (.pktFwdPos (pkt 0x04 0x26 0x30 7)) (runNa 12) = some (164, [0x18, 0x19, 0x1A], 1) := by decide +kernel
/-- V-K1: counter 7 after 5; V-X22's packet opens the gate. -/
theorem test_pktFwdPos_continuity :
    after (.pktFwdPos (pkt 0x04 0x26 0x17 4)) { runNa 12 with extractor := ⟨true, 5⟩ } (fun t => (t.trace, t.extractor.lastCc)) =
      some ([.event .ccDisc 0x57], 7) ∧
    after (.pktFwdPos (pkt 0x44 0x26 0x10 4)) (runNi .awaitingSync) (fun t => t.framer.fsm) = some .streaming := by
  decide +kernel
/-- V-X20. -/
theorem test_pktFwdNeg_span :
    spanOf (.pktFwdNeg (pkt 0x04 0x26 0x30 255)) (runNa 0x1FD) = some (187, [0x04, 0x26, 0x30], 1) := by decide +kernel
/-- V-K2: 15 then 0 is no discontinuity. -/
theorem test_pktFwdNeg_continuity :
    after (.pktFwdNeg (pkt 0x00 0x01 0x10 4)) { runNa 0x1FF with extractor := ⟨true, 15⟩ } (fun t => t.trace) = some [] := by
  decide +kernel
/-- V-X7, and the cell of program P4. -/
theorem test_pktBounds :
    after (.pktBounds (pkt 0x04 0x26 0x32 183)) { runNa 12 with extractor := ⟨true, 1⟩ } (readReg 0x28) = some 0x03022053 := by
  decide +kernel

/-! ## Framer and sink (V-F) -/

/-- CHUNK_SIZE = 187. -/
def small (fr : FramerState) (ph : Phase) : State := { runNa 12 with params := ⟨187, 64, .standard⟩, framer := fr, phase := ph }

theorem test_frmNaAppend :
    after (.frmNaAppend [7, 8]) (small ⟨.streaming, [(0, 5)], 1⟩ (.absorb [7, 8])) (fun t => (t.framer.buf, t.framer.bufLen, t.phase)) =
      some ([(0, 5), (1, 7), (2, 8)], 3, .idle) := by decide
/-- V-F1: reaching CHUNK_SIZE makes the flush due. -/
theorem test_frmNaAppend_full :
    after (.frmNaAppend [7]) (small ⟨.streaming, [], 186⟩ (.absorb [7])) (fun t => (t.framer.bufLen, t.phase)) =
      some (187, .drain) := by decide
theorem test_frmNaFlush :
    after .frmNaFlush (small ⟨.streaming, [(186, 1), (187, 2)], 188⟩ .drain) (fun t => (t.phase, t.framer.bufLen)) =
      some (.sink .naFlush (List.replicate 186 0 ++ [1]), 188) := by decide +kernel
theorem test_frmNiWrite : after (.frmNiWrite [9]) (runNi .streaming) (·.phase) = some (.sink .niWrite [9]) := by decide
/-- V-F7: an empty span writes nothing. -/
theorem test_frmNiWrite_empty :
    after (.frmNiWrite []) (runNi .streaming) (fun t => (t.phase, t.trace)) = some (.idle, []) := by decide
theorem test_frmFinal :
    after (.frmFinal .shortRead) (small ⟨.streaming, [(1, 4)], 2⟩ (.final .shortRead)) (·.phase) =
      some (.sink (.final .shortRead) [0, 4]) := by decide
/-- V-F5, V-S8: nothing buffered, HALT_CAUSE SHORT_READ. -/
theorem test_frmFinal_empty :
    after (.frmFinal .shortRead) { runNa 12 with phase := .final .shortRead } (readReg 0x28) = some 0x01000033 := by decide
/-- The surplus moves to the front. -/
theorem test_snkOk_shift :
    after .snkOk (small ⟨.streaming, [(186, 1), (187, 2)], 188⟩ (.sink .naFlush [1]))
      (fun t => (t.framer.buf.read 0, t.framer.bufLen, t.counters.wr, t.phase)) = some (2, 1, 1, .idle) := by decide +kernel
/-- V-S1's end: the final write accepted. -/
theorem test_snkOk_final :
    after .snkOk (small ⟨.streaming, [], 2⟩ (.sink (.final .endOfStream) [0, 0]))
      (fun t => (readReg 0x28 t, t.framer.bufLen, t.delivered)) = some (0x01000023, 0, [0, 0]) := by decide
/-- V-F4: WRITE_FAIL replaces END_OF_STREAM, BUF_LEN stays. -/
theorem test_snkFail :
    after .snkFail (small ⟨.streaming, [], 2⟩ (.sink (.final .endOfStream) [0, 0]))
      (fun t => (readReg 0x28 t, t.framer.bufLen, t.counters.wr, t.delivered)) = some (0x03000063, 2, 0, []) := by decide
theorem test_sinkBeats : sinkBeats [1, 2, 3] = [(1, false), (2, false), (3, true)] := by decide

/-! ## The table words, run as the first operation after reset -/

theorem test_fetch_reset : stepped (State.reset.withFetchWord 16 0x402) (·.trace) = some [.regWrite 0 2] := by decide
theorem test_fetch_start : stepped (State.reset.withFetchWord 16 0x401) (fun t => t.framer.fsm) = some .streaming := by decide
theorem test_fetch_byte : stepped (State.reset.withFetchWord 16 0x047) (fun t => (t.sync.win, t.sync.fill)) = some ([(0, 0x47)], 1) := by
  decide
theorem test_fetch_eos : stepped (State.reset.withFetchWord 16 0x100) (·.phase) = some (.final .endOfStream) := by decide
theorem test_fetch_valid :
    stepped (State.reset.withFetchWord 32 0x47042610) (fun t => t.counters.pktRead) = some 1 := by decide +kernel
theorem test_fetch_invalid :
    stepped (State.reset.withFetchWord 32 0x46042610) (fun t => t.counters.syncLoss) = some 1 := by decide +kernel
theorem test_fetch_ok : stepped (State.reset.withFetchWord 8 0) (·.delivered) = some [0] := by decide
theorem test_fetch_fail :
    stepped (State.reset.withFetchWord 8 1) (fun t => t.status.haltCause) = some .writeFail := by decide
/-- The reserved symbol is refused (U6). -/
theorem test_reserved_symbol :
    step { runNa 12 with env := ⟨[], [0x300], [], []⟩ } = .refused .reservedSymbol := by rfl

/-! ## A stalled sink (R289), and what a run delivers (R18) -/

/-- An ETI-NI span at a sink that answers no more. -/
def stuck (xs : List HostInput) : State := { runNi .streaming with phase := .sink .niWrite [1], env := ⟨xs, [], [], []⟩ }

/-- R289: RESET, by `rst` or by the CTRL write, ends the run; nothing of the transaction is delivered. -/
theorem test_stalled_reset :
    stepped (stuck [.rst]) (fun t => (t.framer.fsm, t.phase, t.trace)) = some (.idle, .idle, [.rst]) ∧
    stepped (stuck [.access true 0 3]) (fun t => (t.framer.fsm, t.phase, t.trace)) = some (.idle, .idle, [.regWrite 0 3]) := by
  decide
/-- R14, R83: a register read waits for the end of the operation. -/
theorem test_stalled_read : step (stuck [.access false 0x28 0]) = .next (stuck [.access false 0x28 0]) := by rfl
/-- R244: while the sink still answers, RESET comes after the operation. -/
theorem test_reset_after_answer :
    stepped { runNi .streaming with phase := .sink .niWrite [1], env := ⟨[.rst], [], [0], []⟩ }
      (fun t => (t.trace, t.env.host)) = some ([.sink [1] .ok], [.rst]) := by decide
/-- The output of a run is that of this run: RESET begins another (R18, R42). -/
theorem test_delivered_by_run :
    deliveredOf [.sink [1] .ok, .rst, .sink [2] .fail, .sink [3] .ok] = [1, 3] ∧
    ({ State.reset with trace := [.sink [1] .ok, .rst, .source 0x047, .sink [2] .fail, .sink [3] .ok, .event .tei 0] } : State).delivered = [3] ∧
    ({ State.reset with trace := [.sink [1] .ok, .rst, .source 0x047, .sink [2] .fail, .sink [3] .ok, .event .tei 0] } : State).observation =
      ⟨[([2], .fail), ([3], .ok)], [(.tei, 0)], 1, .idle, State.reset.status, State.reset.counters, 0⟩ := by decide

/-! ## Witnesses: states that meet the hypotheses of the statements -/

/-- Everything `Inv` asks of a state in a run but `phaseOk`, as a computation. -/
def runCheck (s : State) : Bool :=
  decide (s.params.ok) && s.sync.win.wf && s.sync.win.within tsSize && s.framer.buf.wf &&
  s.framer.buf.within s.params.bufCap && decide (s.framer.bufLen ≤ s.params.bufCap) &&
  (decide (s.phase = .window) || decide (s.sync.fill < tsSize)) && (!s.sync.resync || decide (187 ≤ s.sync.fill)) && s.running &&
  decide (s.status = State.reset.status) && decide (-3 ≤ s.sel.offset.toInt) && decide (s.sel.offset.toInt ≤ 183) &&
  (decide (s.sel.mode = .na) && decide (s.framer.fsm = .streaming) ||
    decide (s.sel.mode = .ni) && decide (s.sel.offset.toInt = 4) && decide (s.framer.bufLen = 0)) &&
  decide (s.counters = State.reset.counters) && decide (s.sync.srcPos = 0)

/-- A state in a run meets the invariant when the computation says so and the place in the operation agrees. -/
theorem inv_of_runCheck {s : State} (h : runCheck s = true) (hp : s.phaseOk) : Inv s := by
  simp only [runCheck, Bool.and_eq_true, Bool.or_eq_true, decide_eq_true_eq, Bool.not_eq_true'] at h
  obtain ⟨⟨⟨⟨⟨⟨⟨⟨⟨⟨⟨⟨⟨⟨h1, h2⟩, h3⟩, h4⟩, h5⟩, h6⟩, h7⟩, h8⟩, h9⟩, h10⟩, h11⟩, h12⟩, h13⟩, h14⟩, h15⟩ := h
  have hr := (State.running_iff s).1 h9
  have hni : s.framer.fsm ≠ .idle ∧ s.framer.fsm ≠ .halted := by rcases hr with hr | hr <;> simp [hr]
  have hpow : 0 < 2 ^ s.params.cntW := Nat.two_pow_pos _
  have hm : s.sel.mode = .ni → s.sel.offset.toInt = 4 ∧ s.framer.bufLen = 0 := fun hm => by simpa [hm] using h13
  have hz : fits s.params 0 := hpow
  refine ⟨h1, h2, h3, h4, h5, h6, h7, fun hq => ⟨h9, ?_⟩, ?_, ?_, ⟨h11, h12⟩, fun hq => (hm hq).1, ?_, fun hq => (hm hq).2,
    fun hq => absurd hq hni.1, fun hq => absurd hq hni.2, ?_, ?_, ?_, ?_, ?_, ?_, ?_, hp⟩
  · simpa [hq] using h8
  · simp [h10, State.reset, hni.2]
  · simp [h10, State.reset]
  · intro hq
    cases hmm : s.sel.mode
    · simp [hmm, hq] at h13
    · rfl
  · rw [h15]; exact hz
  all_goals rw [h14]; exact hz

/-- The queues of a source alone. -/
def offering (ws : List (BitVec 10)) : Env := ⟨[], ws, [], []⟩

/-- A packet is being handled. -/
def atPacket (s : State) (p : Packet) : State := { s with phase := .packet p }

/-- A transaction is outstanding and the sink answers. -/
def atSink (s : State) (c : Caller) (bytes : List Byte) (w : BitVec 1) : State :=
  { s with phase := .sink c bytes, env := ⟨[], [], [w], []⟩ }

/-- A run in resync mode, with the given first byte of the window. -/
def resyncing (b : Byte) (e : Env) : State :=
  { runNa 12 with sync := ⟨Memory.write [(1, 0x47), (186, 9)] 0 b, 187, true, 0⟩, env := e }

theorem witness_reset_wins : (3 : Word).getLsbD 1 = true := by decide
theorem witness_idle : State.reset.framer.fsm = .idle := rfl
theorem witness_not_idle : (runNa 12).framer.fsm ≠ .idle ∧ (runNi .awaitingSync).framer.fsm ≠ .idle ∧ ended.framer.fsm ≠ .idle := by
  decide
/-- The edges of R130: PID 8191, offsets -3 and 183, ETI-NI with an explicit 4. -/
theorem witness_legal :
    (withCfg 8191 0xFFFD .na true).cfg.legal ∧ (withCfg 0 183 .na true).cfg.legal ∧ (withCfg 0x426 4 .ni true).cfg.legal ∧
    (withCfg 0x426 500 .ni false).cfg.legal := by unfold CfgState.legal; decide
/-- Just outside: V-C3, V-C9, V-C7, V-C13. -/
theorem witness_illegal :
    ¬ (withCfg 8192 12 .na true).cfg.legal ∧ ¬ (withCfg 0x426 0xFFFC .na true).cfg.legal ∧
    ¬ (withCfg 0x426 184 .na true).cfg.legal ∧ ¬ (withCfg 0x426 10 .ni true).cfg.legal := by unfold CfgState.legal; decide
theorem witness_write_without_effect :
    decode State.reset.ctx (.reg true 0x28 1) = .error .noEffectWrite ∧
    decode State.reset.ctx (.reg true 0x00 4) = .error .noEffectWrite := ⟨rfl, rfl⟩
/-- The host's turn, given to it and come to it. -/
theorem witness_write_without_effect_state :
    State.reset.phase = .idle ∧
    (⟨[.access true 0x28 1], [], [], [.host]⟩ : Env).mover = .host ∧ (⟨[.access true 0x28 1], [], [], []⟩ : Env).mover = .host := by
  decide
theorem witness_inv_reset : Inv State.reset := by
  constructor
  case phaseOk => right; decide
  all_goals first | decide | (simp [fits, State.reset]; done)
theorem witness_inv_run : Inv (runNa 12) ∧ Inv (runNi .awaitingSync) ∧ Inv (runNi .streaming) :=
  ⟨inv_of_runCheck (by decide) (by right; decide), inv_of_runCheck (by decide) (by right; decide),
    inv_of_runCheck (by decide) (by right; decide)⟩
theorem witness_bufLen : (runNa 12).framer.bufLen < 2 ^ 64 := by decide
/-- The last mapped register, and the addresses of the last clause next to the map. -/
theorem witness_unmapped :
    120 < (0x80 : BitVec 8).toNat ∧ (0x79 : BitVec 8).toNat % 8 ≠ 0 ∧ (0x00 : BitVec 8).toNat = 0 ∧
    ¬ (120 < (0x78 : BitVec 8).toNat ∨ (0x78 : BitVec 8).toNat % 8 ≠ 0 ∨ (0x78 : BitVec 8).toNat = 0) := by decide

/-- The window's first and last byte. -/
theorem witness_srcByte :
    (runNa 12).running = true ∧ (runNa 12).sync.fill < 188 ∧ (runNa 12).sync.win.wf = true ∧
    ({ runNa 12 with sync := ⟨[], 187, false, 0⟩ } : State).sync.fill < 188 := by decide
theorem witness_outside_a_run : ended.framer.fsm = .halted ∧ State.reset.framer.fsm = .idle := by decide
theorem witness_symbol_taken :
    stepped { runNa 12 with env := offering [0x047] } (fun t => t.env.source) = some [] := by decide
theorem witness_window : ({ runNa 12 with sync := ⟨[(0, 0x47)], 188, false, 0⟩, phase := .window } : State).phase = .window := rfl
theorem witness_win_wf : Memory.wf [(1, 0x47), (187, 9)] = true := by decide
/-- Resync with the marker next, and without. -/
theorem witness_resync :
    Inv (resyncing 0x47 (offering [0x005])) ∧ Inv (resyncing 0x46 (offering [0x005])) ∧
    (resyncing 0x47 (offering [0x005])).phase = .idle ∧ (resyncing 0x47 (offering [0x005])).sync.resync = true ∧
    (offering [0x005]).host = [] ∧ (offering [0x005]).turns = [] ∧ (offering [0x005]).source = (0#2 ++ (5 : Byte)) :: [] ∧
    (resyncing 0x47 (offering [0x005])).sync.win.read 0 = 0x47 ∧ (resyncing 0x46 (offering [0x005])).sync.win.read 0 ≠ 0x47 :=
  ⟨inv_of_runCheck (by decide) (by right; decide), inv_of_runCheck (by decide) (by right; decide), by decide, by decide,
    by decide, by decide, by decide, by decide, by decide⟩
/-- A packet offered to a run at a packet boundary, EOS behind it. -/
theorem witness_aligned : ∃ (s : State) (p : Packet) (ws : List (BitVec 10)),
    Inv s ∧ s.running = true ∧ s.phase = .idle ∧ s.sync.fill = 0 ∧ s.env.host = [] ∧ s.env.turns = [] ∧
    p.length = 188 ∧ p.byte 0 = 0x47 ∧ s.env.source = p.map (fun b => 0#2 ++ b) ++ ws :=
  ⟨{ runNa 12 with env := offering ((pkt 0x04 0x26 0x10 4).map (fun b => 0#2 ++ b) ++ [0x100]) }, pkt 0x04 0x26 0x10 4, [0x100],
    inv_of_runCheck (by decide +kernel) (by right; decide), rfl, rfl, rfl, rfl, rfl, by decide +kernel, by decide +kernel, rfl⟩

/-- The AFC values of R149, with the standard PAYLOAD_OFFSET. -/
theorem witness_afc :
    ({} : Params).payload = .standard ∧ (pkt 0x04 0x26 0x00 4).afc.toNat = 0 ∧ (pkt 0x04 0x26 0x10 4).afc.toNat = 1 ∧
    (pkt 0x04 0x26 0x20 4).afc.toNat = 2 ∧ (pkt 0x04 0x26 0x30 255).afc.toNat = 3 := by decide +kernel
/-- The ends of the range of R191. -/
theorem witness_start_range :
    teiStart = 4 ∧
    (runNa 0x1FD).sel.offset.toInt = -3 ∧ (runNa 0).sel.offset.toInt = 0 ∧ (runNa 183).sel.offset.toInt = 183 ∧
    (pkt 0x04 0x26 0x10 4).afc = 1 ∧ posStart (runNa 183) (pkt 0x04 0x26 0x30 255) = 443 := by decide +kernel
theorem witness_packet :
    (pkt 0x04 0x26 0x10 4).valid = true ∧ (atPacket (runNa 12) (pkt 0x04 0x26 0x10 4)).phase = .packet (pkt 0x04 0x26 0x10 4) :=
  ⟨by decide +kernel, rfl⟩
/-- The checked classes go on, with and without a discontinuity, and the gate opens or stays. -/
theorem witness_checked :
    checkedClass (pkt 0x44 0x26 0x17 4) (.pktFwdPos (pkt 0x44 0x26 0x17 4)) ∧
    after (.pktFwdPos (pkt 0x44 0x26 0x17 4)) { runNi .awaitingSync with extractor := ⟨true, 5⟩ }
      (fun t => (t.framer.fsm, t.diag.evCcDisc)) = some (.streaming, true) ∧
    after (.pktFwdPos (pkt 0x44 0x26 0x16 4)) { runNi .streaming with extractor := ⟨true, 5⟩ }
      (fun t => (t.framer.fsm, t.diag.evCcDisc)) = some (.streaming, false) :=
  ⟨.inr (.inl rfl), by decide +kernel, by decide +kernel⟩
theorem witness_tei : (pkt 0x84 0x26 0x10 4).valid = true ∧ (pkt 0x84 0x26 0x10 4).transportError = true := by decide +kernel
/-- Starts 4 and 188 (V-X2, V-X6), starts 1 and 3 (V-X19, V-X18), start 189 (V-X7). -/
theorem witness_starts :
    (pkt 0x04 0x26 0x30 171).valid = true ∧ (pkt 0x04 0x26 0x30 171).transportError = false ∧
    posStart (runNa 0) (pkt 0x04 0x26 0x10 4) = 4 ∧ posStart (runNa 12) (pkt 0x04 0x26 0x30 171) = 188 ∧
    (runNa 0x1FD).sel.offset.toInt < 0 ∧ negStart (runNa 0x1FD) = 1 ∧ negStart (runNa 0x1FF) = 3 ∧
    188 < posStart (runNa 12) (pkt 0x04 0x26 0x30 172) := by decide +kernel
theorem witness_packet_frame :
    packetOf (.pktFwdNeg (pkt 0x04 0x26 0x10 4)) = some (pkt 0x04 0x26 0x10 4) ∧
    (after (.pktFwdNeg (pkt 0x04 0x26 0x10 4)) (runNa 0x1FD) (fun t => t.cfg.pid)).isSome = true := ⟨rfl, by decide +kernel⟩

/-- The append that just does not, just does, and at most fills BUF (R212, R215). -/
theorem witness_append :
    (0 : Nat) + [0, 0].length ≤ 187 + 186 ∧ ¬ (187 ≤ 184 + [(0 : Byte), 0].length) ∧ 187 ≤ 185 + [(0 : Byte), 0].length ∧
    186 + (List.replicate 187 (0 : Byte)).length = 187 + 186 := by decide +kernel
theorem witness_flush_answered :
    (atSink (small ⟨.streaming, [], 187⟩ .idle) .naFlush [] 0).phase = .sink .naFlush [] ∧
    (small ⟨.streaming, [], 187⟩ .idle).params.chunkSize ≤ 187 ∧ Memory.wf [] = true := by decide
theorem witness_niWrite : ([] : List Byte) = [] ∧ [(1 : Byte)] ≠ [] ∧ (atSink (runNi .streaming) .niWrite [1] 0).phase = .sink .niWrite [1] := by
  decide
theorem witness_final :
    (small ⟨.streaming, [], 1⟩ .idle).sel.mode = .na ∧ 0 < (small ⟨.streaming, [], 1⟩ .idle).framer.bufLen ∧
    (small ⟨.streaming, [], 1⟩ .idle).framer.bufLen ≤ 187 + 186 ∧ (runNi .streaming).sel.mode = .ni ∧
    (atSink (small ⟨.streaming, [], 1⟩ .idle) (.final .readError) [0] 0).phase = .sink (.final .readError) [0] := by decide
theorem witness_sink : (atSink (runNi .streaming) .niWrite [1] 1).phase = .sink .niWrite [1] := rfl
theorem witness_no_transaction : ∀ caller bytes, State.reset.phase ≠ .sink caller bytes := by intro _ _; simp [State.reset]
theorem witness_beats : [(1 : Byte), 2] ≠ [] := by decide
theorem witness_selected :
    (Instr.pktBounds (pkt 0x04 0x26 0x30 172)).wellFormed = true ∧
    (Instr.pktBounds (pkt 0x04 0x26 0x30 172)).selectedBy (ctx 12 .na .streaming) :=
  ⟨by decide +kernel, by
    refine ⟨by decide +kernel, fun h => (by cases h), by decide +kernel, by decide +kernel, by decide +kernel⟩⟩
theorem witness_decoded : decode (ctx 12 .na .streaming) (.sym 0x047) = .ok (.srcByte 0x47) := by rfl
theorem witness_fetched :
    fetch (atSink (runNi .streaming) .niWrite [1] 0) = .word (.rsp 0) { runNi .streaming with phase := .sink .niWrite [1] } ∧
    (atSink (runNi .streaming) .niWrite [1] 0).phase ≠ .idle := ⟨rfl, by decide⟩

/-! Each place inside an operation, with the invariant, and a step from it. -/

/-- A full window, a packet, a span, a due flush, a due end. -/
theorem witness_inv_places :
    Inv { runNa 12 with sync := ⟨[(0, 0x47)], 188, false, 0⟩, phase := .window } ∧
    Inv (atPacket (runNa 12) (pkt 0x04 0x26 0x10 4)) ∧ Inv { runNa 12 with phase := .absorb [1, 2] } ∧
    Inv (small ⟨.streaming, [], 188⟩ .drain) ∧ Inv { runNa 12 with phase := .final .shortRead } :=
  ⟨inv_of_runCheck (by decide) ⟨by decide, by decide, by decide⟩,
    inv_of_runCheck (by decide +kernel) ⟨by decide, by decide +kernel, by decide, by decide⟩,
    inv_of_runCheck (by decide) ⟨by decide, by decide, by decide, by decide, by decide⟩,
    inv_of_runCheck (by decide) ⟨by decide, by decide, by decide, by decide⟩,
    inv_of_runCheck (by decide) ⟨by decide, by decide, by decide⟩⟩

/-- The three callers of the sink. -/
theorem witness_inv_sink :
    Inv (atSink (small ⟨.streaming, [], 188⟩ .idle) .naFlush (List.replicate 187 0) 0) ∧
    Inv (atSink (runNi .streaming) .niWrite [1] 1) ∧
    Inv (atSink { runNa 12 with framer := ⟨.streaming, [], 1⟩ } (.final .endOfStream) [0] 0) :=
  ⟨inv_of_runCheck (by decide +kernel) ⟨by decide, by decide, by decide, by decide, by decide +kernel⟩,
    inv_of_runCheck (by decide) ⟨by decide, by decide, by decide, by decide, by decide⟩,
    inv_of_runCheck (by decide) ⟨by decide, by decide, by decide, by decide, by decide, by decide⟩⟩

theorem witness_step_next : (stepped (atSink (runNi .streaming) .niWrite [1] 1) (fun t => t.framer.fsm)) = some .halted := by decide
theorem witness_step_refused :
    Inv { runNa 12 with env := offering [0x300] } ∧ step { runNa 12 with env := offering [0x300] } = .refused .reservedSymbol :=
  ⟨inv_of_runCheck (by decide) (by right; decide), rfl⟩
theorem witness_trace :
    Inv { runNa 12 with env := offering [0x047] } ∧ TraceAgrees { runNa 12 with env := offering [0x047] } ∧
    stepped { runNa 12 with env := offering [0x047] } (fun t => (t.sync.srcPos, t.trace)) = some (1, [.source 0x047]) :=
  ⟨inv_of_runCheck (by decide) (by right; decide), by constructor <;> first | decide | exact rfl, by decide⟩
/-- Each clause of the conservation statement has a step: RESET, a packet, a failed ETI-NI write, an answered one. -/
theorem witness_conserve :
    Inv (atSink (runNi .streaming) .niWrite [1] 0) ∧
    (atSink (runNi .streaming) .niWrite [1] 0).nextInstr = some .snkOk ∧
    stepped (atSink (runNi .streaming) .niWrite [1] 0) State.stream = some [1] ∧
    Inv (atSink (runNi .streaming) .niWrite [1] 1) ∧
    (atSink (runNi .streaming) .niWrite [1] 1).nextInstr = some .snkFail ∧
    stepped (atSink (runNi .streaming) .niWrite [1] 1) State.stream = some [] ∧
    Inv (stuck [.rst]) ∧ (stuck [.rst]).nextInstr = some .hostReset ∧ (stuck [.rst]).stream = [1] ∧
    stepped (stuck [.rst]) State.stream = some [] :=
  ⟨inv_of_runCheck (by decide) ⟨by decide, by decide, by decide, by decide, by decide⟩, by decide, by decide,
    inv_of_runCheck (by decide) ⟨by decide, by decide, by decide, by decide, by decide⟩, by decide, by decide,
    inv_of_runCheck (by decide) ⟨by decide, by decide, by decide, by decide, by decide⟩, by decide, by decide, by decide⟩
theorem witness_conserve_packet :
    Inv (atPacket (runNa 12) (pkt 0x04 0x26 0x10 4)) ∧
    stepped (atPacket (runNa 12) (pkt 0x04 0x26 0x10 4)) (fun t => (t.stream.length, t.stream.take 2)) = some (172, [0x10, 0x11]) :=
  ⟨inv_of_runCheck (by decide +kernel) ⟨by decide, by decide +kernel, by decide, by decide⟩, by decide +kernel⟩
theorem witness_selector_kept :
    (runNa 12).framer.fsm ≠ .idle ∧ ({ runNa 12 with env := ⟨[.access true 0x08 5], [], [], []⟩ } : State).nextInstr = some (.hostCfgwrPid 5) ∧
    stepped { runNa 12 with env := ⟨[.access true 0x08 5], [], [], []⟩ } (fun t => t.cfg.pid) = some 0x426 := by decide
theorem witness_halted : Inv ended ∧ ended.framer.fsm = .halted ∧ stepped ended (· == ended) = some true := by
  refine ⟨?_, by decide, by decide⟩
  constructor
  case phaseOk => left; rfl
  all_goals first | decide | (simp [fits, ended, State.reset]; done)
/-- A transition of each kind that a step makes: START, the gate, the clean end, a failed write, BOUNDS. -/
theorem witness_transitions :
    stepped { State.reset with env := ⟨[.access true 0 1], [], [], []⟩ } (fun t => t.framer.fsm) = some .streaming ∧
    stepped (atPacket (runNi .awaitingSync) (pkt 0x44 0x26 0x10 4)) (fun t => t.framer.fsm) = some .streaming ∧
    stepped { runNa 12 with phase := .final .readError } (fun t => t.status.haltCause) = some .readError ∧
    stepped (atSink (runNi .streaming) .niWrite [1] 1) (fun t => t.status.haltCause) = some .writeFail ∧
    stepped (atPacket (runNa 12) (pkt 0x04 0x26 0x30 172)) (fun t => t.status.haltCause) = some .bounds := by decide +kernel
theorem witness_closed_gate :
    Inv (atPacket (runNi .awaitingSync) (pkt 0x04 0x26 0x10 4)) ∧
    stepped (atPacket (runNi .awaitingSync) (pkt 0x04 0x26 0x10 4)) (fun t => t.framer.fsm) = some .awaitingSync :=
  ⟨inv_of_runCheck (by decide +kernel) ⟨by decide, by decide +kernel, by decide, by decide⟩, by decide +kernel⟩
theorem witness_transaction :
    stepped (small ⟨.streaming, [], 188⟩ .drain) (·.phase) = some (.sink .naFlush (List.replicate 187 0)) := by decide +kernel
/-- The clauses of the statement about stalls: nothing offered in IDLE; a sink that answers no more, with no host input and
with one that is no RESET; a run whose source offers nothing; a RESET for an idle core and under the stalled sink. -/
theorem witness_stalled :
    State.reset.env.turns = [] ∧ State.reset.phase = .idle ∧ State.reset.env.host = [] ∧ State.reset.env.source = [] ∧
    (stuck []).phase = .sink .niWrite [1] ∧ (stuck []).env.answers = [] ∧ (stuck []).env.host = [] ∧
    (HostInput.access true 0 1).isReset = false ∧ (HostInput.access false 0 2).isReset = false ∧
    HostInput.rst.isReset = true ∧ (HostInput.access true 0 2).isReset = true ∧ (⟨[.rst], [], [], []⟩ : Env).mover = .host := by
  decide
theorem witness_stalled_run :
    Inv (stuck [.access false 0x28 0]) ∧ (stuck [.access false 0x28 0]).stalled ∧
    (stuck [.access false 0x28 0]).nextInstr ≠ some .hostReset ∧
    Inv (runNa 12) ∧ (runNa 12).stalled ∧ (runNa 12).nextInstr ≠ some .hostReset :=
  ⟨inv_of_runCheck (by decide) ⟨by decide, by decide, by decide, by decide, by decide⟩, rfl, by decide,
    inv_of_runCheck (by decide) (by right; decide), ⟨rfl, rfl⟩, by decide⟩
/-- A run that has consumed EOS, and one that has not. -/
theorem witness_observed :
    Inv { ended with trace := [.source 0x100] } ∧ TraceAgrees { ended with trace := [.source 0x100] } ∧
    { ended with trace := [.source 0x100] }.observation.consumed = 1 ∧
    Inv (runNa 12) ∧ TraceAgrees (runNa 12) ∧ (runNa 12).observation.consumed = 0 := by
  refine ⟨?_, by constructor <;> first | decide | exact rfl, by decide, inv_of_runCheck (by decide) (by right; decide),
    by constructor <;> first | decide | exact rfl, by decide⟩
  constructor
  case phaseOk => left; rfl
  all_goals first | decide | (simp [fits, ended, State.reset]; done)
theorem witness_erase :
    (runNa 12).erase = ({ runNa 12 with extractor := ⟨true, 3⟩, trace := [.rst] } : State).erase ∧
    (stepped (runNa 12) (fun t => t.sync.fill)).isSome = true := ⟨rfl, by decide⟩

end Sys2Proof.Tests
end

section
/-! PROOFS. The statements of scope: a step as the run of one decoded operation (R14, R110), the end of an operation under
way (R212, R214), and the observation of a run (R18). -/

namespace Sys2Proof.Machine

/-! ## What a word fetched inside an operation leaves alone -/

/-- Inside an operation a fetch takes no source symbol, and of the host's inputs only a RESET under a stalled sink. -/
theorem fetch_word_inside {s s1 : State} {w : PortWord} (h : fetch s = .word w s1) (hp : s.phase ≠ .idle) :
    s1.env.source = s.env.source ∧
    (s1.env.host = s.env.host ∧ s1.trace = s.trace ∨
     (∀ c, decode c w = .ok .hostReset) ∧ s.env.answers = [] ∧ ∃ caller bytes, s.phase = .sink caller bytes) := by
  rcases fetch_word h with ⟨hi, -⟩ | ⟨hi, -⟩ | ⟨-, -, rfl⟩ | ⟨_, -, -, rfl⟩ | ⟨_, -, -, rfl⟩ | ⟨-, -, rfl⟩ | ⟨_, -, -, rfl⟩ |
    ⟨_, _, -, _, _, -, -, rfl⟩ | ⟨caller, bytes, hs, ha, x, xs, -, hx, rfl, rfl⟩
  · exact absurd hi hp
  · exact absurd hi hp
  iterate 6 exact ⟨rfl, .inl ⟨rfl, rfl⟩⟩
  · exact ⟨rfl, .inr ⟨fun c => (hostWord_reset hx c).1, ha, caller, bytes, hs⟩⟩

/-! ## The operation a step runs at each call that is due -/

theorem step_of_window {s : State} (hp : s.phase = .window) :
    step s = exec (decodeWindow (windowHeader s.sync.win)) s :=
  step_of_decode (w := .tsh (windowHeader s.sync.win)) (by simp only [fetch, hp]) rfl

theorem step_of_packet {s : State} {p : Packet} (hp : s.phase = .packet p) (hv : p.valid = true) :
    step s = exec (classify s.ctx p) s :=
  step_of_decode (w := .tsp p) (by simp only [fetch, hp]) (by simp only [decode, hv, if_true])

theorem step_of_absorb {s : State} {span : List Byte} (hp : s.phase = .absorb span) :
    step s = exec (decodeFramer s.sel.mode (.absorb span)) s :=
  step_of_decode (w := .frm (.absorb span)) (by simp only [fetch, hp]) rfl

theorem step_of_drain {s : State} (hp : s.phase = .drain) : step s = execFrmNaFlush s :=
  step_of_decode (w := .frm .flush) (i := .frmNaFlush) (by simp only [fetch, hp]) rfl

theorem step_of_final {s : State} {cause : CleanCause} (hp : s.phase = .final cause) : step s = execFrmFinal cause s :=
  step_of_decode (w := .frm (.terminate cause)) (i := .frmFinal cause) (by simp only [fetch, hp]) rfl

/-! ## The framer operations do not fault where their bytes fit -/

/-- CHUNK_SIZE bytes always fit in BUF, so a flush always begins its transaction (R213, R215). -/
theorem execFrmNaFlush_eq (s : State) :
    execFrmNaFlush s = .next (s.sinkWrite .naFlush (s.framer.buf.readN 0 s.params.chunkSize)) := by
  have hread : memRead .buf 0 s.params.chunkSize s = some (s.framer.buf.readN 0 s.params.chunkSize) :=
    memRead_eq_some.mpr ⟨by simp only [Space.size, Params.bufCap_eq]; omega, rfl⟩
  simp only [execFrmNaFlush, hread]

/-- An append whose span fits in BUF stores it and makes the loop's test (R212). -/
theorem execFrmNaAppend_eq {s : State} {span : List Byte} (h : s.framer.bufLen + span.length ≤ s.params.bufCap) :
    execFrmNaAppend span s = .next { s with
      framer := { s.framer with
        buf := s.framer.buf.writeN s.framer.bufLen span, bufLen := s.framer.bufLen + span.length }
      phase := loopPhase s.params (s.framer.bufLen + span.length) } := by
  have hwrite : memWrite .buf s.framer.bufLen span s = some (s.framer.buf.writeN s.framer.bufLen span) :=
    memWrite_eq_some.mpr ⟨h, rfl⟩
  simp only [execFrmNaAppend, hwrite]

/-- The final operation with a legal BUF_LEN: a last transaction of what is buffered, or the end of the run (R219). -/
theorem execFrmFinal_cases (cause : CleanCause) {s : State} (h : s.framer.bufLen ≤ s.params.bufCap) :
    execFrmFinal cause s = .next (s.sinkWrite (.final cause) (s.framer.buf.readN 0 s.framer.bufLen)) ∨
    execFrmFinal cause s = .next (s.halt (cleanHalt cause)) := by
  have hread : memRead .buf 0 s.framer.bufLen s = some (s.framer.buf.readN 0 s.framer.bufLen) :=
    memRead_eq_some.mpr ⟨by simpa only [Space.size, Nat.zero_add] using h, rfl⟩
  unfold execFrmFinal
  split
  · exact .inl (by simp only [hread])
  · exact .inr rfl

/-! ## The span a packet step hands over -/

/-- The payload never begins inside the header, with the default offset and with a replacement (R149, R151). -/
theorem four_le_payloadOffset (k : Params) (p : Packet) : 4 ≤ p.payloadOffset k := by
  unfold Packet.payloadOffset
  split
  · unfold Packet.standardOffset
    split_ifs <;> simp only [tsSize, hdrSize] <;> omega
  · unfold Packet.replacedOffset
    split_ifs <;> simp only [hdrSize] <;> omega

/-- PKT.FWD_POS is selected only for an offset that is not negative (R110). -/
theorem offset_nonneg_of_classify {c : ClassCtx} {p : Packet} (h : classify c p = .pktFwdPos p) :
    0 ≤ c.selOffset.toInt := by
  unfold classify at h
  split_ifs at h with _ _ _ hneg
  exact not_lt.mp hneg

/-- How a packet step leaves the operation: over, or with a span of at most 187 bytes to absorb and BUF_LEN as it was. -/
def EndsOrAbsorbs (s t : State) : Prop :=
  t.phase = .idle ∨
  ∃ span, t.phase = .absorb span ∧ span.length ≤ spanMax ∧ t.params = s.params ∧ t.framer.bufLen = s.framer.bufLen

/-- Forwarding from a start past byte 0, after steps that keep the parameters and BUF_LEN (R192 to R196). -/
theorem handOver_next {p : Packet} {start : Int} {s u : State} (hv : p.valid = true) (hs : 1 ≤ start)
    (hparams : u.params = s.params) (hlen : u.framer.bufLen = s.framer.bufLen) :
    ∃ t, handOver p start u = .next t ∧ EndsOrAbsorbs s t := by
  rcases handOver_cases p start u with ⟨h0, h188, e⟩ | ⟨-, e⟩
  · have hspan := spanFrom_length ((Packet.valid_iff p).mp hv).1 h0 h188
    exact ⟨_, e, .inr ⟨spanFrom p start, rfl, by simp only [spanMax, tsSize]; omega, hparams, hlen⟩⟩
  · exact ⟨_, e, .inl rfl⟩

/-- Each class halts, is over, or forwards from a start of at least 1: 4 (R188), `payload_offset` and a non-negative offset
(R189), or 4 and an offset not below -3 (R190). -/
theorem step_packet_next {s : State} {p : Packet} (hp : s.phase = .packet p) (hv : p.valid = true)
    (hofs : -3 ≤ s.sel.offset.toInt) : ∃ t, step s = .next t ∧ EndsOrAbsorbs s t := by
  rw [step_of_packet hp hv]
  rcases classify_cases s.ctx p with drop | skip | tei | pos | neg | bounds
  · rw [drop]
    exact ⟨_, rfl, .inl rfl⟩
  · rw [skip]
    exact ⟨_, rfl, .inl rfl⟩
  · rw [tei]
    exact handOver_next (start := teiStart) (u := (s.gateAndCheck p).event .tei 0) hv (by decide) (by simp) (by simp)
  · have hnonneg : 0 ≤ s.sel.offset.toInt := offset_nonneg_of_classify pos
    have hfour := four_le_payloadOffset s.params p
    rw [pos]
    exact handOver_next hv (by unfold posStart; omega) (by simp) (by simp)
  · rw [neg]
    exact handOver_next hv (by simp only [negStart, hdrSize]; omega) (by simp) (by simp)
  · rw [bounds]
    exact ⟨_, rfl, .inl rfl⟩

/-! ## A full window yields a valid packet -/

/-- The bytes of a window whose header word has the marker are a valid packet (R140, R163). -/
theorem window_valid {m : Memory} (h : headerSync (windowHeader m) = true) : Packet.valid (m.readN 0 tsSize) = true := by
  have hbyte : Packet.byte (m.readN 0 tsSize) 0 = m.read 0 := Memory.readN_getD m 0 tsSize 0 (by decide)
  have hsync : m.read 0 = syncMarker := by simpa only [headerSync, windowHeader, append4_high, beq_iff_eq] using h
  exact (Packet.valid_iff _).mpr ⟨Memory.readN_length m 0 tsSize, hbyte.trans hsync⟩

/-- A window step ends the operation, or leaves a valid packet to extract with the selector and the framer as they were. -/
theorem step_window_next {s : State} (hp : s.phase = .window) :
    ∃ t, step s = .next t ∧
      (t.phase = .idle ∨ ∃ p, t.phase = .packet p ∧ p.valid = true ∧ t.params = s.params ∧ t.sel = s.sel ∧
        t.framer = s.framer) := by
  rw [step_of_window hp, decodeWindow]
  split
  case isTrue hsync => exact ⟨_, rfl, .inr ⟨_, rfl, window_valid hsync, rfl, rfl, rfl⟩⟩
  case isFalse => exact ⟨_, rfl, .inl rfl⟩

/-! ## The end of the operation under way, counted from each call that is due -/

/-- Within `n` further steps the operation under way has ended, or waits for the sink. -/
def SettlesWithin (n : Nat) (s : State) : Prop := ∃ k t, k ≤ n ∧ core.run k s = .next t ∧ t.settled

theorem settled_of_idle {s : State} (h : s.phase = .idle) : s.settled := by simp only [State.settled, h]

theorem settled_of_sink {s : State} {caller : Caller} {bytes : List Byte} (h : s.phase = .sink caller bytes) :
    s.settled := by simp only [State.settled, h]

theorem SettlesWithin.of_settled {s : State} (h : s.settled) (n : Nat) : SettlesWithin n s :=
  ⟨0, s, Nat.zero_le n, rfl, h⟩

theorem SettlesWithin.mono {m n : Nat} {s : State} (h : SettlesWithin m s) (hmn : m ≤ n) : SettlesWithin n s := by
  obtain ⟨k, t, hk, hrun, hset⟩ := h
  exact ⟨k, t, hk.trans hmn, hrun, hset⟩

theorem SettlesWithin.of_step {n : Nat} {s t : State} (hstep : step s = .next t) (h : SettlesWithin n t) :
    SettlesWithin (n + 1) s := by
  obtain ⟨k, u, hk, hrun, hset⟩ := h
  refine ⟨k + 1, u, Nat.succ_le_succ hk, ?_, hset⟩
  have hcore : core.step s = .next t := hstep
  simp only [Host.Core.run, hcore, hrun]

theorem drain_settles {s : State} (hp : s.phase = .drain) : SettlesWithin 1 s :=
  .of_step ((step_of_drain hp).trans (execFrmNaFlush_eq s)) (.of_settled (settled_of_sink rfl) 0)

theorem final_settles {s : State} {cause : CleanCause} (hp : s.phase = .final cause)
    (hlen : s.framer.bufLen ≤ s.params.bufCap) : SettlesWithin 1 s := by
  rcases execFrmFinal_cases cause hlen with e | e
  · exact .of_step ((step_of_final hp).trans e) (.of_settled (settled_of_sink rfl) 0)
  · exact .of_step ((step_of_final hp).trans e) (.of_settled (settled_of_idle rfl) 0)

/-- An append is followed by at most one flush before the sink is awaited, an ETI-NI write by none (R212, R217). -/
theorem absorb_settles {s : State} {span : List Byte} (hp : s.phase = .absorb span)
    (hlen : s.framer.bufLen < s.params.chunkSize) (hspan : span.length ≤ spanMax) : SettlesWithin 2 s := by
  have hstep := step_of_absorb hp
  cases hmode : s.sel.mode with
  | na =>
    have hfit : s.framer.bufLen + span.length ≤ s.params.bufCap := by
      simp only [spanMax, tsSize] at hspan
      rw [Params.bufCap_eq]
      omega
    rw [hmode] at hstep
    refine .of_step (hstep.trans (execFrmNaAppend_eq hfit)) ?_
    by_cases hdue : s.params.chunkSize ≤ s.framer.bufLen + span.length
    · exact drain_settles (if_pos hdue)
    · exact .of_settled (settled_of_idle (if_neg hdue)) 1
  | ni =>
    rw [hmode] at hstep
    by_cases hempty : span = []
    · exact .of_step (hstep.trans (if_pos hempty)) (.of_settled (settled_of_idle rfl) 1)
    · exact .of_step (hstep.trans (if_neg hempty)) (.of_settled (settled_of_sink rfl) 1)

theorem packet_settles {s : State} {p : Packet} (hp : s.phase = .packet p) (hv : p.valid = true)
    (hofs : -3 ≤ s.sel.offset.toInt) (hlen : s.framer.bufLen < s.params.chunkSize) : SettlesWithin 3 s := by
  obtain ⟨t, hstep, hidle | ⟨span, hph, hspan, hparams, hbuf⟩⟩ := step_packet_next hp hv hofs
  · exact .of_step hstep (.of_settled (settled_of_idle hidle) 2)
  · exact .of_step hstep (absorb_settles hph (by rwa [hbuf, hparams]) hspan)

theorem window_settles {s : State} (hp : s.phase = .window) (hofs : -3 ≤ s.sel.offset.toInt)
    (hlen : s.framer.bufLen < s.params.chunkSize) : SettlesWithin 4 s := by
  obtain ⟨t, hstep, hidle | ⟨p, hph, hv, hparams, hsel, hframer⟩⟩ := step_window_next hp
  · exact .of_step hstep (.of_settled (settled_of_idle hidle) 3)
  · exact .of_step hstep (packet_settles hph hv (by rwa [hsel]) (by rwa [hframer, hparams]))

/-- The window is the call furthest from the end: window, packet, append, flush. -/
theorem Inv.settlesWithin {s : State} (h : Inv s) : SettlesWithin 4 s := by
  have hofs := h.offset_range.1
  have hok := h.phaseOk
  unfold State.phaseOk at hok
  cases hp : s.phase with
  | idle => exact .of_settled (settled_of_idle hp) 4
  | window =>
    simp only [hp] at hok
    obtain ⟨-, -, hlen⟩ := hok
    exact window_settles hp hofs hlen
  | packet p =>
    simp only [hp] at hok
    obtain ⟨-, hv, -, hlen⟩ := hok
    exact (packet_settles hp hv hofs hlen).mono (by omega)
  | absorb span =>
    simp only [hp] at hok
    obtain ⟨-, -, hlen, hspan, -⟩ := hok
    exact (absorb_settles hp hlen hspan).mono (by omega)
  | drain => exact (drain_settles hp).mono (by omega)
  | final cause => exact (final_settles hp h.bufCap).mono (by omega)
  | sink caller bytes => exact .of_settled (settled_of_sink hp) 4

/-! ## The observation of a run, read from its transfers -/

/-- The bytes delivered are those of the transactions answered OK. -/
theorem deliveredOf_eq_flatten (ts : List Transfer) :
    deliveredOf ts = (((transactionsOf ts).filter fun x => x.2 == .ok).map Prod.fst).flatten := by
  induction ts with
  | nil => rfl
  | cons t ts ih =>
    cases t with
    | sink bytes r => cases r <;> simpa [deliveredOf, transactionsOf, Transfer.transaction] using ih
    | _ => exact ih

theorem countP_isOk (ts : List Transfer) :
    ts.countP Transfer.isOk = (transactionsOf ts).countP fun x => x.2 == .ok := by
  rw [transactionsOf, List.countP_filterMap]
  congr 1
  funext t
  cases t with
  | sink bytes r => cases r <;> rfl
  | _ => rfl

theorem eventCount_eq (kind : EventKind) (ts : List Transfer) :
    eventCount kind ts = (eventsOf ts).countP fun x => x.1 == kind := by
  rw [eventCount, eventsOf, List.countP_filterMap]
  congr 1
  funext t
  cases t <;> rfl

/-- A symbol ends the source's sequence exactly when its kind, `w / 256`, is 1 or 2 (R99). -/
theorem isEnd_source (w : BitVec 10) :
    (Transfer.source w).isEnd = true ↔ w.toNat / 256 = 1 ∨ w.toNat / 256 = 2 := by
  have hkind : (w.extractLsb' 8 2).toNat = w.toNat / 256 := by
    rw [BitVec.extractLsb'_toNat, Nat.shiftRight_eq_div_pow]
    have := w.isLt
    omega
  simp [Transfer.isEnd, ← BitVec.toNat_inj, hkind]

/-- An end of the source has been consumed exactly when the count of ends is positive. -/
theorem countP_isEnd_pos (ts : List Transfer) :
    0 < ts.countP Transfer.isEnd ↔ ∃ w, Transfer.source w ∈ ts ∧ (w.toNat / 256 = 1 ∨ w.toNat / 256 = 2) := by
  rw [List.countP_pos_iff]
  constructor
  · rintro ⟨t, ht, hend⟩
    cases t with
    | source w => exact ⟨w, ht, (isEnd_source w).mp hend⟩
    | _ => cases hend
  · rintro ⟨w, ht, hend⟩
    exact ⟨.source w, ht, (isEnd_source w).mpr hend⟩

/-- A run consumes at most one end of the source (R65). -/
theorem State.endsAgree.le_one {s : State} {n : Nat} (h : s.endsAgree n) : n ≤ 1 := by
  unfold State.endsAgree at h
  split at h
  · omega
  · omega
  · split at h <;> omega

/-- A run whose cause says that the source came to its end has consumed one (R65, R232). -/
theorem State.endsAgree.eq_one {s : State} {n : Nat} (h : s.endsAgree n)
    (hc : s.status.haltCause = .endOfStream ∨ s.status.haltCause = .shortRead ∨ s.status.haltCause = .readError) :
    n = 1 := by
  unfold State.endsAgree at h
  split at h
  · exact h
  · exact h
  · rcases hc with hc | hc | hc <;> simpa only [hc] using h

/-- The symbols consumed are SRC_POS and the ends consumed, modulo 2^CNT_W. -/
theorem TraceAgrees.consumed_mod {s : State} (h : TraceAgrees s) :
    s.observation.consumed % 2 ^ s.params.cntW =
      (s.sync.srcPos + (sinceReset s.trace).countP Transfer.isEnd) % 2 ^ s.params.cntW := by
  have hcons : s.observation.consumed = _ := h.consumed
  rw [hcons, h.srcPos, Nat.mod_add_mod]

end Sys2Proof.Machine

open Sys2Proof Sys2Proof.Machine

/-- Settles O45, by the places a fetched word can come from. -/
theorem stepRunsTheDecodedOperation : Obligations.StepRunsTheDecodedOperation := by
  intro s s1 w i hf hd
  refine ⟨step_of_decode hf hd, fun hp => ?_⟩
  obtain ⟨hsource, hkept | ⟨hreset, hstalled⟩⟩ := fetch_word_inside hf hp
  · exact ⟨hsource, .inl hkept⟩
  · have hi : i = .hostReset := Except.ok.inj (hd.symm.trans (hreset s1.ctx))
    exact ⟨hsource, .inr ⟨hi, hstalled⟩⟩

/-- Settles O57, by counting from each call that can be due. -/
theorem operationSettlesWithinFourSteps : Obligations.OperationSettlesWithinFourSteps :=
  fun _ h => h.settlesWithin

/-- Settles O60: each list of the observation is a part of the trace since RESET, of which `TraceAgrees` speaks. -/
theorem observationOfARun : Obligations.ObservationOfARun := by
  intro s _ ht
  have hle := ht.ends.le_one
  have hpos := countP_isEnd_pos (sinceReset s.trace)
  refine ⟨deliveredOf_eq_flatten _, ?wr, ?syncLoss, ?ccDisc, ?tei, fun hend => ?ended, fun hnone => ?running, fun hc => ?cause⟩
  case wr => exact ht.wr.trans (by rw [countP_isOk]; rfl)
  case syncLoss => exact ht.syncLoss.trans (by rw [eventCount_eq]; rfl)
  case ccDisc => exact ht.ccDisc.trans (by rw [eventCount_eq]; rfl)
  case tei => exact ht.tei.trans (by rw [eventCount_eq]; rfl)
  case ended =>
    have hone : (sinceReset s.trace).countP Transfer.isEnd = 1 := Nat.le_antisymm hle (hpos.mpr hend)
    rw [ht.consumed_mod, hone]
  case running =>
    have hzero : (sinceReset s.trace).countP Transfer.isEnd = 0 := Nat.eq_zero_of_not_pos (mt hpos.mp hnone)
    rw [ht.consumed_mod, hzero, ht.srcPos]
    simp
  case cause => exact hpos.mp (by rw [ht.ends.eq_one hc]; exact Nat.one_pos)

end

section
/-! PROOFS. What a step can do, for the statements of state: the transfers it makes of its environment, and the operation it
then runs, with what the place in the operation says of that operation. -/

namespace Sys2Proof.Machine

/-! ## The state after the environment has moved -/

/-- The state in which the transfers `u` have been made, and the inputs `e` are still to come. -/
def State.moved (e : Env) (u : List Transfer) (s : State) : State := { s with env := e, trace := s.trace ++ u }

section
variable (e : Env) (u : List Transfer) (s : State)

@[simp] theorem State.moved_params : (s.moved e u).params = s.params := rfl
@[simp] theorem State.moved_sync : (s.moved e u).sync = s.sync := rfl
@[simp] theorem State.moved_framer : (s.moved e u).framer = s.framer := rfl
@[simp] theorem State.moved_status : (s.moved e u).status = s.status := rfl
@[simp] theorem State.moved_extractor : (s.moved e u).extractor = s.extractor := rfl
@[simp] theorem State.moved_diag : (s.moved e u).diag = s.diag := rfl
@[simp] theorem State.moved_cfg : (s.moved e u).cfg = s.cfg := rfl
@[simp] theorem State.moved_sel : (s.moved e u).sel = s.sel := rfl
@[simp] theorem State.moved_counters : (s.moved e u).counters = s.counters := rfl
@[simp] theorem State.moved_phase : (s.moved e u).phase = s.phase := rfl
@[simp] theorem State.moved_env : (s.moved e u).env = e := rfl
@[simp] theorem State.moved_trace : (s.moved e u).trace = s.trace ++ u := rfl
@[simp] theorem State.moved_ctx : (s.moved e u).ctx = s.ctx := rfl

end

theorem State.eq_moved (s : State) : s = s.moved s.env [] := by simp [State.moved]

theorem State.moved_moved (e e' : Env) (u v : List Transfer) (s : State) :
    (s.moved e u).moved e' v = s.moved e' (u ++ v) := by simp [State.moved]

theorem State.passTurn_eq_moved (s : State) : s.passTurn = s.moved { s.env with turns := s.env.turns.tail } [] := by
  simp [State.passTurn, State.moved]

theorem afterAnswer_eq_moved (s : State) (vs : List (BitVec 1)) :
    afterAnswer s vs = s.moved { s.env with answers := vs } [] := by
  simp [afterAnswer, State.moved]

/-! ## Register accesses other than RESET -/

/-- The transfer of a register access that is no RESET. -/
def Transfer.isAccess : Transfer → Bool
  | .regWrite addr wdata => !(Transfer.regWrite addr wdata).isReset
  | .regRead _ _ => true
  | _ => false

theorem Transfer.isReset_of_isAccess {x : Transfer} (h : x.isAccess = true) : x.isReset = false := by
  cases x with
  | regWrite addr wdata => simpa [Transfer.isAccess] using h
  | regRead addr rdata => rfl
  | _ => cases h

theorem Transfer.isSymbol_of_isAccess {x : Transfer} (h : x.isAccess = true) : x.isSymbol = false := by
  cases x with
  | source w => cases h
  | _ => rfl

theorem Transfer.isEvent_of_isAccess {x : Transfer} (h : x.isAccess = true) (kind : EventKind) :
    x.isEvent kind = false := by
  cases x with
  | event k info => cases h
  | _ => rfl

theorem Transfer.transaction_of_isAccess {x : Transfer} (h : x.isAccess = true) : x.transaction = none := by
  cases x with
  | sink bytes r => cases h
  | _ => rfl

/-- The operations of a register access other than RESET. -/
def IsAccess (i : Instr) : Prop :=
  i = .hostStart ∨ (∃ w, i = .hostCfgwrPid w) ∨ (∃ w, i = .hostCfgwrOffset w) ∨ (∃ w, i = .hostCfgwrCtrl w) ∨
    ∃ addr, i = .hostRd addr

/-- A host input that is no RESET selects an access, if anything (R36, R37). -/
theorem decode_access {x : HostInput} (hx : x.isReset = false) {c : ClassCtx} {i : Instr}
    (hd : decode c (hostWord x).1 = .ok i) : IsAccess i := by
  unfold IsAccess
  cases x with
  | rst => cases hx
  | access we addr wdata =>
    cases we with
    | false =>
      cases hd
      simp
    | true =>
      simp only [hostWord, decode, decodeReg, Bool.true_eq_false, if_false] at hd
      simp only [HostInput.isReset, Bool.true_and] at hx
      split_ifs at hd with h0 hr
      · exact absurd hx (by rw [h0, hr]; decide)
      all_goals cases hd; simp

/-- It is recorded, if at its transfer, as an access. -/
theorem hostWord_access {x : HostInput} (hx : x.isReset = false) : ∀ y ∈ (hostWord x).2, y.isAccess = true := by
  cases x with
  | rst => cases hx
  | access we addr wdata =>
    cases we with
    | false => simp [hostWord]
    | true =>
      have hreset : (Transfer.regWrite addr wdata).isReset = false := by
        simpa only [HostInput.isReset, Transfer.isReset, Bool.true_and] using hx
      simp [hostWord, Transfer.isAccess, hreset]

/-! ## The operation of a source symbol -/

/-- The three kinds of symbol that select an operation (R62, R99). -/
theorem decodeSym_cases {w : BitVec 10} {i : Instr} (h : decodeSym w = .ok i) :
    (w.extractLsb' 8 2 = 0 ∧ i = .srcByte (w.extractLsb' 0 8)) ∨ (w.extractLsb' 8 2 = 1 ∧ i = .srcEos) ∨
    (w.extractLsb' 8 2 = 2 ∧ i = .srcErr) := by
  unfold decodeSym at h
  split_ifs at h with h0 h1 h2
  · cases h; exact .inl ⟨h0, rfl⟩
  · cases h; exact .inr (.inl ⟨h1, rfl⟩)
  · cases h; exact .inr (.inr ⟨h2, rfl⟩)

/-! ## The operation a step runs -/

/-- A step from `s` runs the operation `i` after the transfers `u`, which leave the inputs `e` to come. -/
inductive Runs (s : State) : Instr → Env → List Transfer → Prop
  /-- RESET, at the host's turn or under a stalled sink (R121, R289). -/
  | reset {e : Env} {x : Transfer} (hx : x.isReset = true) : Runs s .hostReset e [x]
  /-- Any other access at the host's turn. -/
  | access {x : HostInput} {xs : List HostInput} {i : Instr} (hp : s.phase = .idle) (hi : IsAccess i)
      (hu : ∀ y ∈ (hostWord x).2, y.isAccess = true) :
      Runs s i { s.env with host := xs, turns := s.env.turns.tail } (hostWord x).2
  /-- A source symbol, while the core reads (R64). -/
  | symbol {e : Env} {w : BitVec 10} {i : Instr} (hp : s.phase = .idle) (hr : s.running = true) (hd : decodeSym w = .ok i) :
      Runs s i e [.source w]
  | window (hp : s.phase = .window) : Runs s (decodeWindow (windowHeader s.sync.win)) s.env []
  | packet {p : Packet} (hp : s.phase = .packet p) (hv : p.valid = true) : Runs s (classify s.ctx p) s.env []
  | absorb {span : List Byte} (hp : s.phase = .absorb span) : Runs s (decodeFramer s.sel.mode (.absorb span)) s.env []
  | drain (hp : s.phase = .drain) : Runs s .frmNaFlush s.env []
  | final {cause : CleanCause} (hp : s.phase = .final cause) : Runs s (.frmFinal cause) s.env []
  /-- The sink's answer to the outstanding transaction (R66). -/
  | answer {caller : Caller} {bytes : List Byte} {e : Env} {v : BitVec 1} (hp : s.phase = .sink caller bytes) :
      Runs s (decodeRsp v) e []

theorem nextInstr_of_decode {s s1 : State} {w : PortWord} {i : Instr} (hf : fetch s = .word w s1)
    (hd : decode s1.ctx w = .ok i) : s.nextInstr = some i := by
  simp only [State.nextInstr, hf, hd]

/-- A host input selects RESET or an access, or is a write without effect. -/
theorem decode_host {x : HostInput} {c : ClassCtx} {i : Instr} (hd : decode c (hostWord x).1 = .ok i) :
    (i = .hostReset ∧ ∃ t : Transfer, (hostWord x).2 = [t] ∧ t.isReset = true) ∨
    (IsAccess i ∧ ∀ y ∈ (hostWord x).2, y.isAccess = true) := by
  by_cases hx : x.isReset = true
  · obtain ⟨hreset, ht⟩ := hostWord_reset hx c
    exact .inl ⟨Except.ok.inj (hd.symm.trans hreset), ht⟩
  · have hx : x.isReset = false := by simpa using hx
    exact .inr ⟨decode_access hx hd, hostWord_access hx⟩

/-- What a fetched word that decodes runs. -/
theorem runs_of_fetch {s s1 : State} {w : PortWord} {i : Instr} (hf : fetch s = .word w s1)
    (hd : decode s1.ctx w = .ok i) : ∃ e u, s1 = s.moved e u ∧ Runs s i e u := by
  rcases fetch_word hf with ⟨hp, x, xs, -, rfl, rfl⟩ | ⟨hp, hr, v, vs, -, rfl, rfl⟩ | ⟨hp, rfl, rfl⟩ | ⟨p, hp, rfl, rfl⟩ |
    ⟨span, hp, rfl, rfl⟩ | ⟨hp, rfl, rfl⟩ | ⟨cause, hp, rfl, rfl⟩ | ⟨caller, bytes, hp, v, vs, -, rfl, rfl⟩ |
    ⟨caller, bytes, hp, -, x, xs, -, hx, rfl, rfl⟩
  · refine ⟨_, _, rfl, ?_⟩
    rcases decode_host hd with ⟨rfl, t, ht, hreset⟩ | ⟨hi, hu⟩
    · exact ht ▸ .reset hreset
    · exact .access hp hi hu
  · exact ⟨_, _, rfl, .symbol hp hr hd⟩
  · cases hd
    exact ⟨_, _, s1.eq_moved, .window hp⟩
  · simp only [decode] at hd
    split_ifs at hd with hv
    cases hd
    exact ⟨_, _, s1.eq_moved, .packet hp hv⟩
  · cases hd
    exact ⟨_, _, s1.eq_moved, .absorb hp⟩
  · cases hd
    exact ⟨_, _, s1.eq_moved, .drain hp⟩
  · cases hd
    exact ⟨_, _, s1.eq_moved, .final hp⟩
  · cases hd
    exact ⟨_, _, afterAnswer_eq_moved s vs, .answer hp⟩
  · obtain ⟨hreset, t, ht, hr⟩ := hostWord_reset hx (afterStalled s x xs).ctx
    cases hd.symm.trans hreset
    exact ⟨_, _, rfl, ht ▸ .reset hr⟩

/-- Only a host's write is a word without effect, and it changes nothing but the inputs and the record (R36, R37). -/
theorem moved_of_noEffect {s t : State} {w : PortWord} (hf : fetch s = .word w t)
    (hd : decode t.ctx w = .error .noEffectWrite) :
    ∃ e u, t = s.moved e u ∧ e.source = s.env.source ∧ e.answers = s.env.answers ∧ ∀ y ∈ u, y.isAccess = true := by
  rcases fetch_word hf with ⟨-, x, xs, -, rfl, rfl⟩ | ⟨-, -, v, vs, -, rfl, rfl⟩ | ⟨-, rfl, rfl⟩ | ⟨p, -, rfl, rfl⟩ |
    ⟨span, -, rfl, rfl⟩ | ⟨-, rfl, rfl⟩ | ⟨cause, -, rfl, rfl⟩ | ⟨caller, bytes, -, v, vs, -, rfl, rfl⟩ |
    ⟨caller, bytes, -, -, x, xs, -, hx, rfl, rfl⟩
  · refine ⟨_, _, rfl, rfl, rfl, hostWord_access ?_⟩
    by_contra hx
    cases hd.symm.trans (hostWord_reset (Bool.eq_true_of_not_eq_false hx) _).1
  · simp only [decode, decodeSym] at hd
    split_ifs at hd
    cases hd
  · cases hd
  · simp only [decode] at hd
    split_ifs at hd
    cases hd
  · cases hd
  · cases hd
  · cases hd
  · cases hd
  · cases hd.symm.trans (hostWord_reset hx _).1

/-- What a step that answers next did: nothing but let its environment move, or run one operation. -/
theorem step_cases {s t : State} (h : step s = .next t) :
    (∃ e u, t = s.moved e u ∧ e.source = s.env.source ∧ e.answers = s.env.answers ∧ ∀ y ∈ u, y.isAccess = true) ∨
    ∃ i e u, s.nextInstr = some i ∧ Runs s i e u ∧ exec i (s.moved e u) = .next t := by
  rcases step_next h with hw | ⟨w, s1, i, hf, hd, he⟩ | ⟨w, hf, hd⟩
  · left
    rcases fetch_wait hw with rfl | ⟨-, rfl⟩
    · exact ⟨_, _, t.eq_moved, rfl, rfl, by simp⟩
    · exact ⟨_, _, s.passTurn_eq_moved, rfl, rfl, by simp⟩
  · obtain ⟨e, u, rfl, hr⟩ := runs_of_fetch hf hd
    exact .inr ⟨i, e, u, nextInstr_of_decode hf hd, hr, he⟩
  · exact .inl (moved_of_noEffect hf hd)

end Sys2Proof.Machine
end

section
/-! PROOFS. What each operation can do where it answers next: one lemma per operation, which every statement about steps
uses. -/

namespace Sys2Proof.Machine

/-- A START on an illegal configuration: the state it halts in (R125). -/
def startHalted (s : State) : State :=
  State.halt .cfgError
    { s with status := { s.status with pidRange := errPid s.cfg, ofsRange := errOfs s.cfg, modeOfs := errMis s.cfg } }

/-- What a register access other than RESET can do: nothing; in IDLE store a configuration or enter or refuse a run; record
the word read. -/
theorem exec_access_cases {i : Instr} {s t : State} (hi : IsAccess i) (h : exec i s = .next t) :
    t = s ∨
    (s.framer.fsm = .idle ∧ ∃ c, t = { s with cfg := c }) ∨
    (s.framer.fsm = .idle ∧ (errPid s.cfg || errOfs s.cfg || errMis s.cfg) = false ∧ t = startAccepted s) ∨
    (s.framer.fsm = .idle ∧ (errPid s.cfg || errOfs s.cfg || errMis s.cfg) = true ∧ t = startHalted s) ∨
    ∃ x : Transfer, x.isAccess = true ∧ t = s.moved s.env [x] := by
  have hcfg : ∀ {c}, writeCfg c s = .next t → t = s ∨ (s.framer.fsm = .idle ∧ ∃ c, t = { s with cfg := c }) := by
    intro c hc
    unfold writeCfg at hc
    split at hc
    case isTrue hidle => cases hc; exact .inr ⟨hidle, c, rfl⟩
    case isFalse => cases hc; exact .inl rfl
  rcases hi with rfl | ⟨w, rfl⟩ | ⟨w, rfl⟩ | ⟨w, rfl⟩ | ⟨addr, rfl⟩
  · simp only [exec, execHostStart] at h
    split_ifs at h with hidle herr
    · cases h; exact .inr (.inr (.inr (.inl ⟨hidle, herr, rfl⟩)))
    · cases h; exact .inr (.inr (.inl ⟨hidle, by simpa using herr, rfl⟩))
    · cases h; exact .inl rfl
  · exact (hcfg h).imp_right .inl
  · exact (hcfg h).imp_right .inl
  · exact (hcfg h).imp_right .inl
  · cases h; exact .inr (.inr (.inr (.inr ⟨_, rfl, rfl⟩)))

/-- The state after a byte has entered the window (R161). -/
def byteTaken (b : Byte) (s : State) : State :=
  { s with
    sync := { s.sync with
      srcPos := inc s.params s.sync.srcPos, win := s.sync.win.write s.sync.fill b, fill := s.sync.fill + 1 }
    phase := if s.sync.fill + 1 = tsSize then .window else .idle }

theorem execSrcByte_next {b : Byte} {s t : State} (hr : s.running = true) (h : execSrcByte b s = .next t) :
    s.sync.fill < tsSize ∧ t = byteTaken b s := by
  unfold execSrcByte at h
  rw [if_pos hr] at h
  split at h
  case isTrue hf => cases h; exact ⟨hf, rfl⟩
  case isFalse => cases h

/-- Either end of the source discards the window and makes `terminate` due (R166, R167). -/
theorem execSrcEos_running {s : State} (hr : s.running = true) :
    exec .srcEos s = .next (s.dropWindow.goto (.final (if s.sync.fill = 0 then .endOfStream else .shortRead))) := if_pos hr

theorem execSrcErr_running {s : State} (hr : s.running = true) :
    exec .srcErr s = .next (s.dropWindow.goto (.final .readError)) := if_pos hr

/-- The state after a span has been appended or the surplus has moved: new bytes, a new BUF_LEN, and the loop's test made
again (R212). -/
def refilled (buf : Memory) (len : Nat) (s : State) : State :=
  { s with framer := { s.framer with buf := buf, bufLen := len }, phase := loopPhase s.params len }

theorem execFrmNaAppend_next {span : List Byte} {s t : State} (h : execFrmNaAppend span s = .next t) :
    s.framer.bufLen + span.length ≤ s.params.bufCap ∧
      t = refilled (s.framer.buf.writeN s.framer.bufLen span) (s.framer.bufLen + span.length) s := by
  unfold execFrmNaAppend at h
  split at h
  · cases h
  · rename_i hw
    obtain ⟨hfit, rfl⟩ := memWrite_eq_some.mp hw
    cases h
    exact ⟨hfit, rfl⟩

theorem shiftChunk_next {s t : State} (h : shiftChunk s = .next t) :
    t = refilled (s.framer.buf.writeN 0 (s.framer.buf.readN s.params.chunkSize (s.framer.bufLen - s.params.chunkSize)))
      (s.framer.bufLen - s.params.chunkSize) s := by
  unfold shiftChunk at h
  split at h
  · cases h
  · rename_i hr
    obtain ⟨-, rfl⟩ := memRead_eq_some.mp hr
    cases h
    rfl

theorem execFrmNiWrite_next {span : List Byte} {s t : State} (h : execFrmNiWrite span s = .next t) :
    (span = [] ∧ t = s.goto .idle) ∨ (span ≠ [] ∧ t = s.goto (.sink .niWrite span)) := by
  unfold execFrmNiWrite at h
  split at h
  case isTrue he => cases h; exact .inl ⟨he, rfl⟩
  case isFalse he => cases h; exact .inr ⟨he, rfl⟩

theorem execFrmFinal_next {cause : CleanCause} {s t : State} (h : execFrmFinal cause s = .next t) :
    (s.sel.mode = .na ∧ 0 < s.framer.bufLen ∧ t = s.goto (.sink (.final cause) (s.framer.buf.readN 0 s.framer.bufLen))) ∨
    t = s.halt (cleanHalt cause) := by
  unfold execFrmFinal at h
  split at h
  case isTrue hc =>
    split at h
    · cases h
    · rename_i hr
      obtain ⟨-, rfl⟩ := memRead_eq_some.mp hr
      cases h
      exact .inl ⟨hc.1, hc.2, rfl⟩
  case isFalse => cases h; exact .inr rfl

/-- The state in which a transaction is recorded as answered OK and counted (R66). -/
def written (bytes : List Byte) (s : State) : State := (s.log (.sink bytes .ok)).countWrite

theorem execSnkOk_sink {caller : Caller} {bytes : List Byte} {s : State} (hp : s.phase = .sink caller bytes) :
    exec .snkOk s = afterOk caller (written bytes s) := by
  simp only [exec, execSnkOk, hp, written]

theorem execSnkFail_sink {caller : Caller} {bytes : List Byte} {s : State} (hp : s.phase = .sink caller bytes) :
    exec .snkFail s = .next ((s.log (.sink bytes .fail)).halt .writeFail) := by
  simp only [exec, execSnkFail, hp]
  rfl

end Sys2Proof.Machine
end

section
/-! PROOFS. The invariant, kept by every operation and so by every step. -/

namespace Sys2Proof.Machine

/-! ## What the invariant says of a place -/

/-- A run is neither idle nor halted. -/
theorem State.running_ne {s : State} (hr : s.running = true) : s.framer.fsm ≠ .idle ∧ s.framer.fsm ≠ .halted := by
  rcases s.running_iff.mp hr with hf | hf <;> simp [hf]

theorem State.running_of_streaming {s : State} (hs : s.framer.fsm = .streaming) : s.running = true :=
  s.running_iff.mpr (.inr hs)

section
variable {s : State} (h : Inv s)
include h

theorem Inv.at_input (hp : s.phase = .idle) (hr : s.running = true) : s.framer.bufLen < s.params.chunkSize := by
  have hok := h.phaseOk
  simp only [State.phaseOk, hp] at hok
  exact hok.resolve_left (State.running_ne hr).2

theorem Inv.at_window (hp : s.phase = .window) :
    s.running = true ∧ s.sync.fill = tsSize ∧ s.framer.bufLen < s.params.chunkSize := by
  simpa only [State.phaseOk, hp] using h.phaseOk

theorem Inv.at_packet {p : Packet} (hp : s.phase = .packet p) :
    s.running = true ∧ p.valid = true ∧ s.sync.fill = 0 ∧ s.framer.bufLen < s.params.chunkSize := by
  simpa only [State.phaseOk, hp] using h.phaseOk

theorem Inv.at_absorb {span : List Byte} (hp : s.phase = .absorb span) :
    s.framer.fsm = .streaming ∧ s.sync.fill = 0 ∧ s.framer.bufLen < s.params.chunkSize ∧ span.length ≤ spanMax ∧
      (s.sel.mode = .ni → span.length ≤ tsSize - hdrSize) := by
  simpa only [State.phaseOk, hp] using h.phaseOk

theorem Inv.at_drain (hp : s.phase = .drain) :
    s.framer.fsm = .streaming ∧ s.sync.fill = 0 ∧ s.sel.mode = .na ∧ s.params.chunkSize ≤ s.framer.bufLen := by
  simpa only [State.phaseOk, hp] using h.phaseOk

theorem Inv.at_final {cause : CleanCause} (hp : s.phase = .final cause) :
    s.running = true ∧ s.sync.fill = 0 ∧ s.framer.bufLen < s.params.chunkSize := by
  simpa only [State.phaseOk, hp] using h.phaseOk

theorem Inv.at_naFlush {bytes : List Byte} (hp : s.phase = .sink .naFlush bytes) :
    s.sel.mode = .na ∧ s.params.chunkSize ≤ s.framer.bufLen := by
  have hok := h.phaseOk
  simp only [State.phaseOk, hp] at hok
  obtain ⟨-, -, hna, hlen, -⟩ := hok
  exact ⟨hna, hlen⟩

theorem Inv.at_niWrite {bytes : List Byte} (hp : s.phase = .sink .niWrite bytes) : s.sel.mode = .ni := by
  have hok := h.phaseOk
  simp only [State.phaseOk, hp] at hok
  obtain ⟨-, -, hni, -⟩ := hok
  exact hni

/-- At the sink the run is past its gate and the window is empty, whoever called. -/
theorem Inv.at_sink {caller : Caller} {bytes : List Byte} (hp : s.phase = .sink caller bytes) :
    s.framer.fsm = .streaming ∧ s.sync.fill = 0 := by
  have hok := h.phaseOk
  cases caller
  all_goals
    simp only [State.phaseOk, hp] at hok
    obtain ⟨hs, hfill, -⟩ := hok
    exact ⟨hs, hfill⟩

/-- In IDLE everything but the configuration is at its reset value. -/
theorem Inv.at_idle (hi : s.framer.fsm = .idle) :
    s.sync = State.reset.sync ∧ s.framer = State.reset.framer ∧ s.phase = .idle := by
  have hfresh := h.idleFresh hi
  exact ⟨(congrArg State.sync hfresh :), (congrArg State.framer hfresh :), (congrArg State.phase hfresh :)⟩

theorem Inv.cause_none (hne : s.framer.fsm ≠ .halted) : s.status.haltCause = .none := h.causeIff.mpr hne

/-- Away from the waiting point FILL = 187 no loss event is on. -/
theorem Inv.resync_clear (hf : s.sync.fill = 0) : s.sync.resync = false := by
  cases hq : s.sync.resync with
  | false => rfl
  | true =>
    have hfill := (h.resyncRange hq).2
    rw [hf] at hfill
    exact absurd hfill (by decide)

end

theorem cleanHalt_ne (cause : CleanCause) : cleanHalt cause ≠ .none ∧ cleanHalt cause ≠ .cfgError := by
  cases cause <;> decide

/-! ## The operations on the state keep the invariant -/

/-- RESET gives the invariant back, whatever the state, where the build's parameters are legal. -/
theorem Inv.resetCore {s : State} (hok : s.params.ok) : Inv s.resetCore where
  paramsOk := hok
  winWf := rfl
  winWithin := rfl
  bufWf := rfl
  bufWithin := rfl
  bufCap := Nat.zero_le _
  fillRange := .inr (by simp [State.reset])
  resyncRange := by simp [State.reset]
  causeIff := by simp [State.reset]
  cfgErrIff := by simp [State.reset]
  selRange := by rw [State.resetCore_sel]; decide
  selNi := by simp [State.reset]
  awaitNi := by simp [State.reset]
  niEmpty := fun _ => rfl
  idleFresh := fun _ => rfl
  haltedIdle := fun _ => rfl
  srcPosFits := Nat.two_pow_pos _
  pktReadFits := Nat.two_pow_pos _
  pktFwdFits := Nat.two_pow_pos _
  wrFits := Nat.two_pow_pos _
  syncLossFits := Nat.two_pow_pos _
  ccDiscFits := Nat.two_pow_pos _
  teiFits := Nat.two_pow_pos _
  phaseOk := .inr (Nat.lt_of_lt_of_le (Nat.succ_pos _) hok.1)

section
variable {s : State} (h : Inv s)
include h

/-- The inputs and the record are no part of the invariant. -/
theorem Inv.moved (e : Env) (u : List Transfer) : Inv (s.moved e u) :=
  { h with idleFresh := fun hi => congrArg (State.moved e u) (h.idleFresh hi) }

/-- In a run, another place may be reached inside the operation where the rest of the state agrees with it. -/
theorem Inv.goto {ph : Phase} (hr : s.running = true) (hf : s.sync.fill < tsSize) (hok : (s.goto ph).phaseOk) :
    Inv (s.goto ph) :=
  { h with
    fillRange := .inr hf
    idleFresh := fun hi => absurd hi (State.running_ne hr).1
    haltedIdle := fun hh => absurd hh (State.running_ne hr).2
    phaseOk := hok }

/-- A run may halt where its window is empty, with any cause that only a run has. -/
theorem Inv.halt {cause : HaltCause} (hr : s.running = true) (hf : s.sync.fill = 0) (hc : cause ≠ .none)
    (hc' : cause ≠ .cfgError) : Inv (s.halt cause) :=
  { h with
    fillRange := .inr (by rw [State.halt_sync, hf]; decide)
    resyncRange := fun hq => absurd hq (by rw [State.halt_sync, h.resync_clear hf]; decide)
    causeIff := ⟨fun hn => absurd hn hc, fun hn => absurd rfl hn⟩
    cfgErrIff := ⟨fun hb => (nomatch (h.cause_none (State.running_ne hr).2).symm.trans (h.cfgErrIff.mp hb)),
      fun hn => absurd hn hc'⟩
    awaitNi := fun ha => by cases ha
    idleFresh := fun hi => by cases hi
    haltedIdle := fun _ => rfl
    phaseOk := .inl rfl }

theorem Inv.event (hne : s.framer.fsm ≠ .idle) (kind : EventKind) (info : BitVec 8) : Inv (s.event kind info) := by
  have hfresh : (s.event kind info).framer.fsm = .idle → { s.event kind info with cfg := State.reset.cfg } =
      (s.event kind info).resetCore := fun hi => absurd hi hne
  cases kind with
  | syncLoss => exact { h with idleFresh := hfresh, syncLossFits := inc_fits _ _ }
  | ccDisc => exact { h with idleFresh := hfresh, ccDiscFits := inc_fits _ _ }
  | tei => exact { h with idleFresh := hfresh, teiFits := inc_fits _ _ }

theorem Inv.recordCc (hne : s.framer.fsm ≠ .idle) (cc : Cc) : Inv (s.recordCc cc) :=
  { h with idleFresh := fun hi => absurd hi hne }

theorem Inv.continuity (hne : s.framer.fsm ≠ .idle) (p : Packet) : Inv (s.continuity p) := by
  rcases continuity_cases p s with ⟨-, e⟩ | ⟨-, e⟩
  · rw [e]
    exact (h.event hne _ _).recordCc hne _
  · rw [e]
    exact h.recordCc hne _

theorem Inv.openGate {p : Packet} (hp : s.phase = .packet p) : Inv (s.openGate p) := by
  rcases openGate_cases p s with ⟨⟨hni, hawait, -⟩, e⟩ | ⟨-, e⟩
  · rw [e]
    have hnone := h.cause_none (by simp [hawait])
    obtain ⟨-, hv, hfill, hlen⟩ := h.at_packet hp
    exact { h with
      resyncRange := fun hq => ⟨rfl, (h.resyncRange hq).2⟩
      causeIff := by simp [hnone]
      awaitNi := fun _ => hni
      idleFresh := fun hi => by cases hi
      haltedIdle := fun hh => by cases hh
      phaseOk := by simpa only [State.phaseOk, hp] using ⟨rfl, hv, hfill, hlen⟩ }
  · rw [e]
    exact h

theorem Inv.openGate_ne_idle {p : Packet} (hp : s.phase = .packet p) : (s.openGate p).framer.fsm ≠ .idle := by
  rcases openGate_cases p s with ⟨-, e⟩ | ⟨-, e⟩
  · simp [e]
  · rw [e]
    exact (State.running_ne (h.at_packet hp).1).1

theorem Inv.gateAndCheck {p : Packet} (hp : s.phase = .packet p) : Inv (s.gateAndCheck p) :=
  (h.openGate hp).continuity (h.openGate_ne_idle hp) p

/-- A new content of BUF in ETI-NA, and the loop's test (R212, R213). -/
theorem Inv.refilled {buf : Memory} {len : Nat} (hs : s.framer.fsm = .streaming) (hf : s.sync.fill = 0)
    (hna : s.sel.mode = .na) (hwf : buf.wf = true) (hin : buf.within s.params.bufCap = true)
    (hlen : len ≤ s.params.bufCap) : Inv (refilled buf len s) :=
  { h with
    bufWf := hwf
    bufWithin := hin
    bufCap := hlen
    fillRange := .inr (by rw [show (Machine.refilled buf len s).sync = s.sync from rfl, hf]; decide)
    niEmpty := fun hni => by cases hna.symm.trans hni
    idleFresh := fun hi => by cases hs.symm.trans hi
    haltedIdle := fun hh => by cases hs.symm.trans hh
    phaseOk := by
      by_cases hdue : s.params.chunkSize ≤ len
      · simpa [State.phaseOk, Machine.refilled, loopPhase, hdue] using ⟨hs, hf, hna⟩
      · simpa [State.phaseOk, Machine.refilled, loopPhase, hdue] using .inr (by omega) }

end

/-! ## The host's operations -/

/-- The effective offset of a legal configuration lies in the selector's range (R129, R131). -/
theorem effOffset_range {c : CfgState} (hofs : errOfs c = false) : ofsMin ≤ effOffset c ∧ effOffset c ≤ ofsMax := by
  unfold effOffset
  split_ifs with hexpl
  · simpa [errOfs, hexpl] using hofs
  · cases c.mode <;> decide

theorem effOffset_ni {c : CfgState} (hmis : errMis c = false) (hni : c.mode = .ni) : effOffset c = ofsNi := by
  unfold effOffset
  split_ifs with hexpl
  · simpa [errMis, hexpl, hni] using hmis
  · simp only [hni]

/-- A legal offset fits the selector's nine bits (R124). -/
theorem latchSel_offset {c : CfgState} (hofs : errOfs c = false) : (latchSel c).offset.toInt = effOffset c := by
  obtain ⟨hlo, hhi⟩ := effOffset_range hofs
  simp only [ofsMin, ofsMax] at hlo hhi
  rw [latchSel, BitVec.toInt_ofInt]
  exact Int.bmod_eq_of_le (by omega) (by omega)

theorem startAccepted_fsm (s : State) :
    (startAccepted s).framer.fsm = if s.cfg.mode = .ni then .awaitingSync else .streaming := by
  unfold startAccepted
  cases s.cfg.mode <;> simp

theorem startAccepted_running (s : State) : (startAccepted s).running = true := by
  rw [State.running_iff, startAccepted_fsm]
  split <;> simp

section
variable {s : State} (h : Inv s) (hi : s.framer.fsm = .idle)
include h hi

theorem Inv.startAccepted (hlegal : (errPid s.cfg || errOfs s.cfg || errMis s.cfg) = false) :
    Inv (startAccepted s) := by
  simp only [Bool.or_eq_false_iff] at hlegal
  obtain ⟨⟨-, hofs⟩, hmis⟩ := hlegal
  obtain ⟨hsync, hframer, hphase⟩ := h.at_idle hi
  obtain ⟨hnotIdle, hnotHalted⟩ := State.running_ne (startAccepted_running s)
  have hoffset : (Machine.startAccepted s).sel.offset.toInt = effOffset s.cfg := latchSel_offset hofs
  have hempty : s.framer.bufLen = 0 := by rw [hframer]; rfl
  exact { h with
    resyncRange := fun hq => by rw [State.startAccepted_sync, hsync] at hq; cases hq
    causeIff := ⟨fun _ => hnotHalted, fun _ => h.cause_none (by rw [hi]; decide)⟩
    selRange := by rw [hoffset]; exact effOffset_range hofs
    selNi := fun hni => hoffset.trans (effOffset_ni hmis hni)
    awaitNi := fun ha => by
      rw [startAccepted_fsm] at ha
      split_ifs at ha with hni
      exact hni
    niEmpty := fun _ => hempty
    idleFresh := fun hidle => absurd hidle hnotIdle
    haltedIdle := fun hhalted => absurd hhalted hnotHalted
    phaseOk := by
      have hpos := Params.chunkSize_ge h.paramsOk
      have hlen : (Machine.startAccepted s).framer.bufLen = 0 := hempty
      simp only [State.phaseOk, State.startAccepted_phase, hphase, State.startAccepted_params, hlen]
      exact .inr (by omega) }

theorem Inv.startHalted (herr : (errPid s.cfg || errOfs s.cfg || errMis s.cfg) = true) : Inv (startHalted s) := by
  obtain ⟨hsync, -, -⟩ := h.at_idle hi
  exact { h with
    fillRange := .inr (by rw [show (Machine.startHalted s).sync = s.sync from rfl, hsync]; decide)
    resyncRange := fun hq => by rw [show (Machine.startHalted s).sync = s.sync from rfl, hsync] at hq; cases hq
    causeIff := by simp [Machine.startHalted]
    cfgErrIff := ⟨fun _ => rfl, fun _ => herr⟩
    awaitNi := fun ha => by cases ha
    idleFresh := fun hidle => by cases hidle
    haltedIdle := fun _ => rfl
    phaseOk := .inl rfl }

end

theorem Inv.access {s t : State} {i : Instr} (h : Inv s) (hi : IsAccess i) (he : exec i s = .next t) : Inv t := by
  rcases exec_access_cases hi he with rfl | ⟨-, c, rfl⟩ | ⟨hidle, hlegal, rfl⟩ | ⟨hidle, herr, rfl⟩ | ⟨x, -, rfl⟩
  · exact h
  · exact { h with }
  · exact h.startAccepted hidle hlegal
  · exact h.startHalted hidle herr
  · exact h.moved _ _

/-! ## Source symbols and the window -/

section
variable {s t : State} (h : Inv s)
include h

theorem Inv.byteTaken {b : Byte} (hp : s.phase = .idle) (hr : s.running = true) (hf : s.sync.fill < tsSize) :
    Inv (byteTaken b s) := by
  have hroom := h.at_input hp hr
  have hphase : (Machine.byteTaken b s).phase = if s.sync.fill + 1 = tsSize then .window else .idle := rfl
  exact { h with
    winWf := Memory.wf_write h.winWf _ _
    winWithin := Memory.within_write h.winWithin _ _ hf
    fillRange := by
      by_cases hfull : s.sync.fill + 1 = tsSize
      · exact .inl (by rw [hphase, if_pos hfull])
      · exact .inr (Nat.lt_of_le_of_ne hf hfull)
    resyncRange := fun hq => ⟨hr, (h.resyncRange hq).2.trans (Nat.le_succ _)⟩
    idleFresh := fun hidle => absurd hidle (State.running_ne hr).1
    haltedIdle := fun hhalted => absurd hhalted (State.running_ne hr).2
    srcPosFits := inc_fits _ _
    phaseOk := by
      by_cases hfull : s.sync.fill + 1 = tsSize
      · simp only [State.phaseOk, hphase, if_pos hfull]
        exact ⟨hr, hfull, hroom⟩
      · simp only [State.phaseOk, hphase, if_neg hfull]
        exact .inr hroom }

/-- Either end of the source empties the window, with `terminate` due. -/
theorem Inv.sourceEnd {cause : CleanCause} (hp : s.phase = .idle) (hr : s.running = true) :
    Inv (s.dropWindow.goto (.final cause)) :=
  { h with
    fillRange := .inr (Nat.zero_lt_succ _)
    resyncRange := fun hq => by cases hq
    idleFresh := fun hidle => absurd hidle (State.running_ne hr).1
    haltedIdle := fun hhalted => absurd hhalted (State.running_ne hr).2
    phaseOk := ⟨hr, rfl, h.at_input hp hr⟩ }

theorem Inv.symbol {i : Instr} {w : BitVec 10} (hp : s.phase = .idle) (hr : s.running = true)
    (hd : decodeSym w = .ok i) (he : exec i s = .next t) : Inv t := by
  rcases decodeSym_cases hd with ⟨-, rfl⟩ | ⟨-, rfl⟩ | ⟨-, rfl⟩
  · obtain ⟨hf, rfl⟩ := execSrcByte_next hr he
    exact h.byteTaken hp hr hf
  · rw [execSrcEos_running hr] at he
    cases he
    exact h.sourceEnd hp hr
  · rw [execSrcErr_running hr] at he
    cases he
    exact h.sourceEnd hp hr

theorem Inv.enterResync (hp : s.phase = .window) : Inv s.enterResync := by
  obtain ⟨hr, hfill, -⟩ := h.at_window hp
  have hne := (State.running_ne hr).1
  have hmarked : Inv { s with sync := { s.sync with resync := true } } :=
    { h with
      resyncRange := fun _ => ⟨hr, by simp only [hfill]; decide⟩
      idleFresh := fun hidle => absurd hidle hne }
  unfold State.enterResync
  split_ifs
  · exact h
  · exact hmarked.event hne _ _

/-- Another content of WIN at the waiting point FILL = 187. -/
theorem Inv.slid {win : Memory} (hr : s.running = true) (hroom : s.framer.bufLen < s.params.chunkSize)
    (hwf : win.wf = true) (hin : win.within tsSize = true) :
    Inv { s with sync := { s.sync with win := win, fill := tsSize - 1 }, phase := .idle } :=
  { h with
    winWf := hwf
    winWithin := hin
    fillRange := .inr (Nat.lt_succ_self _)
    resyncRange := fun _ => ⟨hr, Nat.le_refl _⟩
    idleFresh := fun hidle => absurd hidle (State.running_ne hr).1
    haltedIdle := fun hhalted => absurd hhalted (State.running_ne hr).2
    phaseOk := .inr hroom }

theorem Inv.slideWindow (hr : s.running = true) (hroom : s.framer.bufLen < s.params.chunkSize) :
    Inv (s.slideWindow.goto .idle) := by
  unfold State.slideWindow State.goto
  exact h.slid hr hroom (Memory.wf_writeN h.winWf _ _)
    (Memory.within_writeN h.winWithin _ _ (by rw [Memory.readN_length]; decide))

theorem Inv.evaluateWindow (hp : s.phase = .window)
    (he : exec (decodeWindow (windowHeader s.sync.win)) s = .next t) : Inv t := by
  obtain ⟨hr, -, hroom⟩ := h.at_window hp
  unfold decodeWindow at he
  split at he
  case isTrue hsync =>
    cases he
    exact { h with
      fillRange := .inr (Nat.zero_lt_succ _)
      resyncRange := fun hq => by cases hq
      idleFresh := fun hidle => absurd hidle (State.running_ne hr).1
      haltedIdle := fun hhalted => absurd hhalted (State.running_ne hr).2
      pktReadFits := inc_fits _ _
      phaseOk := ⟨hr, window_valid hsync, rfl, hroom⟩ }
  case isFalse =>
    cases he
    exact (h.enterResync hp).slideWindow (by simpa [State.running] using hr) (by simpa using hroom)

/-! ## Packets -/

/-- Forwarding past the gate, from a start at which the span fits the framer (R192 to R196). -/
theorem Inv.handOver {p : Packet} {start : Int} (hp : s.phase = .packet p) (hs : s.framer.fsm = .streaming)
    (hstart : 1 ≤ start) (hni : s.sel.mode = .ni → 4 ≤ start) (he : handOver p start s = .next t) : Inv t := by
  obtain ⟨hr, hv, hfill, hroom⟩ := h.at_packet hp
  rcases handOver_cases p start s with ⟨h0, h188, e⟩ | ⟨-, e⟩
  · have hspan := spanFrom_length ((Packet.valid_iff p).mp hv).1 h0 h188
    have hok : (s.goto (.absorb (spanFrom p start))).phaseOk :=
      ⟨hs, hfill, hroom, by simp only [spanMax, tsSize]; omega, fun hm => by
        have := hni hm
        simp only [tsSize, hdrSize]
        omega⟩
    cases e.symm.trans he
    exact { h.goto hr (by rw [hfill]; decide) hok with
      idleFresh := fun hidle => absurd hidle (State.running_ne hr).1
      pktFwdFits := inc_fits _ _ }
  · cases e.symm.trans he
    exact h.halt hr hfill (by decide) (by decide)

/-- Past the skip test the gate is open, or opens for the packet (R183, R184). -/
theorem Inv.openGate_streaming {p : Packet} (hr : s.running = true) (hgate : ¬ (s.ctx.gateClosed && !p.qualifies) = true) :
    (s.openGate p).framer.fsm = .streaming := by
  rcases openGate_cases p s with ⟨-, e⟩ | ⟨hnot, e⟩
  · rw [e]
  · rw [e]
    refine (s.running_iff.mp hr).resolve_left fun hawait => hgate ?_
    have hni := h.awaitNi hawait
    simpa [ClassCtx.gateClosed, State.ctx, hni, hawait] using hnot

theorem Inv.packet {p : Packet} (hp : s.phase = .packet p) (he : exec (classify s.ctx p) s = .next t) : Inv t := by
  obtain ⟨hr, -, hfill, hroom⟩ := h.at_packet hp
  have hchecked := h.gateAndCheck hp
  have hph : (s.gateAndCheck p).phase = .packet p := by simpa using hp
  have hdropped : Inv (s.goto .idle) := h.goto hr (by rw [hfill]; decide) (.inr hroom)
  have hopen (hgate : ¬ (s.ctx.gateClosed && !p.qualifies) = true) : (s.gateAndCheck p).framer.fsm = .streaming := by
    rw [State.gateAndCheck_framer]
    exact h.openGate_streaming hr hgate
  unfold classify at he
  split_ifs at he with hsel hgate htei hneg hpos
  · cases he
    exact hdropped
  · cases he
    exact hdropped
  · have hs := hopen hgate
    have hreported := hchecked.event (by rw [hs]; decide) .tei 0
    exact hreported.handOver (start := teiStart) hph hs (by decide) (fun _ => by decide) he
  · obtain ⟨hlow, -, hfour⟩ := h.offset_range
    refine hchecked.handOver hph (hopen hgate) ?_ (fun hni => ?_) he
    · simp only [negStart, hdrSize]
      omega
    · exact absurd hneg (by simp only [State.ctx, hfour (by simpa using hni)]; decide)
  · have hstart : 4 ≤ posStart s p := by
      have hfour := four_le_payloadOffset s.params p
      have hoffset : 0 ≤ s.sel.offset.toInt := not_lt.mp hneg
      unfold posStart
      omega
    exact hchecked.handOver hph (hopen hgate) (by omega) (fun _ => hstart) he
  · cases he
    exact hchecked.halt (State.running_of_streaming (hopen hgate)) (by simpa using hfill) (by decide) (by decide)

/-! ## The framer and the sink -/

theorem Inv.absorb {span : List Byte} (hp : s.phase = .absorb span)
    (he : exec (decodeFramer s.sel.mode (.absorb span)) s = .next t) : Inv t := by
  obtain ⟨hs, hfill, hroom, hspan, hspanNi⟩ := h.at_absorb hp
  have hr := State.running_of_streaming hs
  have hfill' : s.sync.fill < tsSize := by rw [hfill]; decide
  cases hmode : s.sel.mode with
  | na =>
    rw [hmode] at he
    obtain ⟨hfit, rfl⟩ := execFrmNaAppend_next he
    exact h.refilled hs hfill hmode (Memory.wf_writeN h.bufWf _ _) (Memory.within_writeN h.bufWithin _ _ hfit) hfit
  | ni =>
    rw [hmode] at he
    rcases execFrmNiWrite_next he with ⟨-, rfl⟩ | ⟨hne, rfl⟩
    · exact h.goto hr hfill' (.inr hroom)
    · exact h.goto hr hfill' ⟨hs, hfill, hmode, List.length_pos_iff.mpr hne, hspanNi hmode⟩

theorem Inv.drain (hp : s.phase = .drain) (he : exec .frmNaFlush s = .next t) : Inv t := by
  obtain ⟨hs, hfill, hna, hdue⟩ := h.at_drain hp
  cases (execFrmNaFlush_eq s).symm.trans he
  exact h.goto (State.running_of_streaming hs) (by rw [hfill]; decide) ⟨hs, hfill, hna, hdue, rfl⟩

theorem Inv.final {cause : CleanCause} (hp : s.phase = .final cause) (he : exec (.frmFinal cause) s = .next t) :
    Inv t := by
  obtain ⟨hr, hfill, hroom⟩ := h.at_final hp
  rcases execFrmFinal_next he with ⟨hna, hpos, rfl⟩ | rfl
  · have hs : s.framer.fsm = .streaming :=
      (s.running_iff.mp hr).resolve_left fun ha => by cases hna.symm.trans (h.awaitNi ha)
    exact h.goto hr (by rw [hfill]; decide) ⟨hs, hfill, hna, hpos, hroom, rfl⟩
  · exact h.halt hr hfill (cleanHalt_ne cause).1 (cleanHalt_ne cause).2

theorem Inv.written (hne : s.framer.fsm ≠ .idle) (bytes : List Byte) : Inv (written bytes s) :=
  { h.moved s.env [.sink bytes .ok] with
    idleFresh := fun hidle => absurd hidle hne
    wrFits := inc_fits _ _ }

/-- What each caller does on an OK (R213, R217, R219). -/
theorem Inv.afterOk {caller : Caller} {bytes : List Byte} (hp : s.phase = .sink caller bytes)
    (he : afterOk caller s = .next t) : Inv t := by
  obtain ⟨hs, hfill⟩ := h.at_sink hp
  have hr := State.running_of_streaming hs
  cases caller with
  | naFlush =>
    obtain ⟨hna, hdue⟩ := h.at_naFlush hp
    have hlen : s.framer.bufLen - s.params.chunkSize ≤ s.params.bufCap := (Nat.sub_le _ _).trans h.bufCap
    cases shiftChunk_next he
    exact h.refilled hs hfill hna (Memory.wf_writeN h.bufWf _ _)
      (Memory.within_writeN h.bufWithin _ _ (by simpa using hlen)) hlen
  | niWrite =>
    cases he
    have hempty := h.niEmpty (h.at_niWrite hp)
    have hpos := Params.chunkSize_ge h.paramsOk
    exact h.goto hr (by rw [hfill]; decide) (.inr (by simp only [State.goto_framer, State.goto_params]; omega))
  | final cause =>
    cases he
    exact { h.halt hr hfill (cleanHalt_ne cause).1 (cleanHalt_ne cause).2 with
      bufCap := Nat.zero_le _
      niEmpty := fun _ => rfl
      idleFresh := fun hidle => by cases hidle
      phaseOk := .inl rfl }

theorem Inv.answer {caller : Caller} {bytes : List Byte} {v : BitVec 1} (hp : s.phase = .sink caller bytes)
    (he : exec (decodeRsp v) s = .next t) : Inv t := by
  obtain ⟨hs, hfill⟩ := h.at_sink hp
  unfold decodeRsp at he
  split_ifs at he
  · rw [execSnkOk_sink hp] at he
    exact (h.written (by simp [hs]) bytes).afterOk (bytes := bytes) hp he
  · cases (execSnkFail_sink hp).symm.trans he
    exact (h.moved s.env [.sink bytes .fail]).halt (State.running_of_streaming hs) hfill (by decide) (by decide)

end

/-! ## Every operation of a step -/

theorem Inv.runs {s t : State} {i : Instr} {e : Env} {u : List Transfer} (h : Inv s) (hr : Runs s i e u)
    (he : exec i (s.moved e u) = .next t) : Inv t := by
  have hm := h.moved e u
  cases hr with
  | reset => cases he; exact .resetCore h.paramsOk
  | access hp hi _ => exact hm.access hi he
  | symbol hp hrun hd => exact hm.symbol hp hrun hd he
  | window hp => exact hm.evaluateWindow hp he
  | packet hp _ => exact hm.packet hp he
  | absorb hp => exact hm.absorb hp he
  | drain hp => exact hm.drain hp he
  | final hp => exact hm.final hp he
  | answer hp => exact hm.answer hp he

theorem Inv.step {s t : State} (h : Inv s) (hstep : step s = .next t) : Inv t := by
  rcases step_cases hstep with ⟨e, u, rfl, -⟩ | ⟨i, e, u, -, hr, he⟩
  · exact h.moved e u
  · exact h.runs hr he

end Sys2Proof.Machine

open Sys2Proof Sys2Proof.Machine

/-- Settles O47, operation by operation: each keeps the invariant from the place at which a step runs it. -/
theorem stepKeepsTheInvariant : Obligations.StepKeepsTheInvariant := fun _ _ h hstep => h.step hstep

end

section
/-! PROOFS. The counters, the sticky flags and the window agree with the transfers since RESET: the agreement in parts, each
over the transfers it counts, and what each operation does to them. -/

namespace Sys2Proof.Machine

/-! ## The lists read off the transfers -/

theorem sinceReset_append {ts u : List Transfer} (hu : ∀ x ∈ u, x.isReset = false) :
    sinceReset (ts ++ u) = sinceReset ts ++ u := by
  have hrun : ∀ x ∈ u.reverse, (!x.isReset) = true := by simpa using hu
  rw [sinceReset, List.reverse_append, List.takeWhile_append_of_pos hrun, List.reverse_append, List.reverse_reverse,
    ← sinceReset]

@[simp] theorem sourceBytes_append (ts us : List Transfer) :
    sourceBytes (ts ++ us) = sourceBytes ts ++ sourceBytes us := List.filterMap_append ..

@[simp] theorem eventCount_append (kind : EventKind) (ts us : List Transfer) :
    eventCount kind (ts ++ us) = eventCount kind ts + eventCount kind us := List.countP_append ..

theorem Transfer.sourceByte_of_not_isSymbol {x : Transfer} (h : x.isSymbol = false) : x.sourceByte = none := by
  cases x with
  | source w => cases h
  | _ => rfl

theorem Transfer.isEnd_of_not_isSymbol {x : Transfer} (h : x.isSymbol = false) : x.isEnd = false := by
  cases x with
  | source w => cases h
  | _ => rfl

theorem Transfer.isOk_of_isAccess {x : Transfer} (h : x.isAccess = true) : x.isOk = false := by
  cases x with
  | sink bytes r => cases h
  | _ => rfl

/-- Transfers that are no source symbol count no end of the source. -/
theorem countP_isEnd_append {r u : List Transfer} (hu : ∀ x ∈ u, x.isSymbol = false) :
    (r ++ u).countP Transfer.isEnd = r.countP Transfer.isEnd := by
  have hzero : u.countP Transfer.isEnd = 0 :=
    List.countP_eq_zero.mpr fun x hx => by simp [Transfer.isEnd_of_not_isSymbol (hu x hx)]
  rw [List.countP_append, hzero, Nat.add_zero]

/-! ## SRC_POS, the window and the symbols consumed -/

/-- SRC_POS, the window and the count of symbols agree with the transfers `r` of a run (R25, R61). -/
def SourceAgrees (k : Params) (y : SyncState) (r : List Transfer) : Prop :=
  y.srcPos = (sourceBytes r).length % 2 ^ k.cntW ∧ y.win.readN 0 y.fill <:+ sourceBytes r ∧
    symbolsConsumed r = (sourceBytes r).length + r.countP Transfer.isEnd

section
variable {k : Params} {y : SyncState} {r : List Transfer} (h : SourceAgrees k y r)
include h

theorem SourceAgrees.append {u : List Transfer} (hu : ∀ x ∈ u, x.isSymbol = false) : SourceAgrees k y (r ++ u) := by
  have hbytes : sourceBytes u = [] :=
    List.filterMap_eq_nil_iff.mpr fun x hx => Transfer.sourceByte_of_not_isSymbol (hu x hx)
  have hsymbols : symbolsConsumed u = 0 := List.countP_eq_zero.mpr fun x hx => by simp [hu x hx]
  simpa only [SourceAgrees, sourceBytes_append, hbytes, List.append_nil, symbolsConsumed_append, hsymbols, Nat.add_zero,
    countP_isEnd_append hu] using h

/-- A byte enters the window at FILL (R161). -/
theorem SourceAgrees.byte {w : BitVec 10} (hwf : y.win.wf = true) (hw : w.extractLsb' 8 2 = 0) :
    SourceAgrees k { y with
      srcPos := inc k y.srcPos, win := y.win.write y.fill (w.extractLsb' 0 8), fill := y.fill + 1 }
      (r ++ [.source w]) := by
  obtain ⟨hpos, ⟨old, hwindow⟩, hconsumed⟩ := h
  have hsome : (Transfer.source w).sourceByte = some (w.extractLsb' 0 8) := if_pos hw
  have hbytes : sourceBytes (r ++ [.source w]) = sourceBytes r ++ [w.extractLsb' 0 8] := by
    rw [sourceBytes_append]
    simp [sourceBytes, hsome]
  have hone : symbolsConsumed [.source w] = 1 := rfl
  have hnotEnd : (Transfer.source w).isEnd = false := by simp [Transfer.isEnd, hw]
  have hread : (y.win.write y.fill (w.extractLsb' 0 8)).readN 0 (y.fill + 1) =
      y.win.readN 0 y.fill ++ [w.extractLsb' 0 8] := by
    have hkept : (y.win.write y.fill (w.extractLsb' 0 8)).readN 0 y.fill = y.win.readN 0 y.fill :=
      Memory.readN_congr fun x _ hx => by rw [Memory.read_write hwf, if_neg (by omega)]
    rw [Memory.readN_add, hkept]
    simp [Memory.readN, Memory.read_write hwf]
  refine ⟨?_, ⟨old, ?_⟩, ?_⟩
  · rw [hbytes, List.length_append, hpos]
    exact inc_mod k _
  · rw [hbytes, hread, ← List.append_assoc, hwindow]
  · rw [symbolsConsumed_append, hconsumed, hone, hbytes, List.length_append, List.countP_append,
      List.countP_singleton, hnotEnd]
    exact Nat.add_right_comm _ _ 1

/-- An end of the source discards the window (R166, R167). -/
theorem SourceAgrees.ended {w : BitVec 10} (hw : (Transfer.source w).isEnd = true) :
    SourceAgrees k { y with fill := 0, resync := false } (r ++ [.source w]) := by
  obtain ⟨hpos, -, hconsumed⟩ := h
  have hnone : (Transfer.source w).sourceByte = none := if_neg fun h0 => by simp [Transfer.isEnd, h0] at hw
  have hbytes : sourceBytes (r ++ [.source w]) = sourceBytes r := by
    rw [sourceBytes_append]
    simp [sourceBytes, hnone]
  have hone : symbolsConsumed [.source w] = 1 := rfl
  refine ⟨by rw [hbytes]; exact hpos, List.nil_suffix, ?_⟩
  rw [symbolsConsumed_append, hconsumed, hone, hbytes, List.countP_append, List.countP_singleton, hw]
  exact Nat.add_assoc _ _ 1

/-- A yielded window leaves no byte at the waiting point (R163). -/
theorem SourceAgrees.yielded : SourceAgrees k { y with resync := false, fill := 0 } r := by
  obtain ⟨hpos, -, hconsumed⟩ := h
  exact ⟨hpos, List.nil_suffix, hconsumed⟩

/-- A window moved by one byte holds the last 187 of the bytes it held (R164). -/
theorem SourceAgrees.slid (hwf : y.win.wf = true) (hfull : y.fill = tsSize) :
    SourceAgrees k { y with win := y.win.writeN 0 (y.win.readN 1 (tsSize - 1)), fill := tsSize - 1 } r := by
  obtain ⟨hpos, hwindow, hconsumed⟩ := h
  have hread : (y.win.writeN 0 (y.win.readN 1 (tsSize - 1))).readN 0 (tsSize - 1) = y.win.readN 1 (tsSize - 1) := by
    have e := Memory.readN_writeN hwf 0 (y.win.readN 1 (tsSize - 1))
    rwa [Memory.readN_length] at e
  have hsplit : y.win.readN 0 tsSize = y.win.readN 0 1 ++ y.win.readN 1 (tsSize - 1) := Memory.readN_add _ 0 1 (tsSize - 1)
  rw [hfull, hsplit] at hwindow
  refine ⟨hpos, ?_, hconsumed⟩
  rw [hread]
  exact (List.suffix_append _ _).trans hwindow

end

/-! ## The events -/

/-- The counter of an event kind (R45). -/
def CounterState.ofEvent (c : CounterState) : EventKind → Nat
  | .syncLoss => c.syncLoss
  | .ccDisc => c.ccDisc
  | .tei => c.tei

/-- The sticky flag of an event kind (R30). -/
def DiagState.sticky (d : DiagState) : EventKind → Bool
  | .syncLoss => d.evSyncLoss
  | .ccDisc => d.evCcDisc
  | .tei => d.evTei

theorem countEvent_ofEvent (k : Params) (kind kind' : EventKind) (c : CounterState) :
    (countEvent k kind c).ofEvent kind' = if kind = kind' then inc k (c.ofEvent kind') else c.ofEvent kind' := by
  cases kind <;> cases kind' <;> rfl

theorem setSticky_sticky (kind kind' : EventKind) (d : DiagState) :
    (setSticky kind d).sticky kind' = if kind = kind' then true else d.sticky kind' := by
  cases kind <;> cases kind' <;> rfl

/-- Counter and flag of every kind agree with the transfers `r` of a run (R30, R45, R240). -/
def EventsAgree (k : Params) (c : CounterState) (d : DiagState) (r : List Transfer) : Prop :=
  ∀ kind, c.ofEvent kind = eventCount kind r % 2 ^ k.cntW ∧ (d.sticky kind = true ↔ 0 < eventCount kind r)

theorem EventsAgree.append {k : Params} {c : CounterState} {d : DiagState} {r u : List Transfer}
    (h : EventsAgree k c d r) (hu : ∀ x ∈ u, ∀ kind, x.isEvent kind = false) : EventsAgree k c d (r ++ u) := by
  intro kind
  have hzero : eventCount kind u = 0 := List.countP_eq_zero.mpr fun x hx => by simp [hu x hx kind]
  rw [eventCount_append, hzero, Nat.add_zero]
  exact h kind

theorem EventsAgree.event {k : Params} {c : CounterState} {d : DiagState} {r : List Transfer} (h : EventsAgree k c d r)
    (kind : EventKind) (info : BitVec 8) :
    EventsAgree k (countEvent k kind c) (setSticky kind d) (r ++ [.event kind info]) := by
  intro kind'
  obtain ⟨hcount, hsticky⟩ := h kind'
  have hone : eventCount kind' [.event kind info] = if kind = kind' then 1 else 0 := by
    simp [eventCount, Transfer.isEvent, List.countP_singleton]
  rw [countEvent_ofEvent, setSticky_sticky, eventCount_append, hone]
  split_ifs
  · exact ⟨by rw [hcount]; exact inc_mod k _, by simp⟩
  · exact ⟨hcount, hsticky⟩

/-! ## The parts together -/

theorem traceAgrees_iff (s : State) :
    TraceAgrees s ↔
      SourceAgrees s.params s.sync (sinceReset s.trace) ∧
      s.endsAgree ((sinceReset s.trace).countP Transfer.isEnd) ∧
      s.counters.wr = (sinceReset s.trace).countP Transfer.isOk % 2 ^ s.params.cntW ∧
      EventsAgree s.params s.counters s.diag (sinceReset s.trace) := by
  constructor
  · intro h
    refine ⟨⟨h.srcPos, h.window, h.consumed⟩, h.ends, h.wr, fun kind => ?_⟩
    cases kind with
    | syncLoss => exact ⟨h.syncLoss, h.evSyncLoss⟩
    | ccDisc => exact ⟨h.ccDisc, h.evCcDisc⟩
    | tei => exact ⟨h.tei, h.evTei⟩
  · rintro ⟨⟨hpos, hwindow, hconsumed⟩, hends, hwr, hevents⟩
    exact ⟨hpos, hwindow, hconsumed, hends, hwr, (hevents .syncLoss).1, (hevents .ccDisc).1, (hevents .tei).1,
      (hevents .syncLoss).2, (hevents .ccDisc).2, (hevents .tei).2⟩

/-- With no transfer since RESET, the reset values agree. -/
theorem TraceAgrees.resetCore {s : State} (hr : sinceReset s.trace = []) : TraceAgrees s.resetCore := by
  rw [traceAgrees_iff, State.resetCore_trace, hr]
  refine ⟨⟨(Nat.zero_mod _).symm, List.nil_suffix, rfl⟩, rfl, (Nat.zero_mod _).symm, fun kind => ?_⟩
  cases kind <;> exact ⟨(Nat.zero_mod _).symm, by simp [DiagState.sticky, State.reset, eventCount]⟩

/-! ## The ends of the source, by the place in the operation -/

/-- The places after the call of `terminate`. -/
def Phase.isFinal : Phase → Bool
  | .final _ => true
  | .sink (.final _) _ => true
  | _ => false

/-- While no cause is recorded, an end has been consumed exactly after the call of `terminate`. -/
theorem endsAgree_iff {s : State} {n : Nat} (hc : s.status.haltCause = .none) :
    s.endsAgree n ↔ n = if s.phase.isFinal then 1 else 0 := by
  unfold State.endsAgree
  rw [hc]
  cases s.phase with
  | sink caller bytes => cases caller <;> rfl
  | _ => rfl

/-! ## What the operations do to the agreement -/

section
variable {s t : State} (h : TraceAgrees s)
include h

/-- Register accesses count for nothing. -/
theorem TraceAgrees.moved {e : Env} {u : List Transfer} (hu : ∀ x ∈ u, x.isAccess = true) : TraceAgrees (s.moved e u) := by
  obtain ⟨hsource, hends, hwr, hevents⟩ := (traceAgrees_iff s).mp h
  have hsymbol : ∀ x ∈ u, x.isSymbol = false := fun x hx => Transfer.isSymbol_of_isAccess (hu x hx)
  have hok : u.countP Transfer.isOk = 0 := List.countP_eq_zero.mpr fun x hx => by simp [Transfer.isOk_of_isAccess (hu x hx)]
  rw [traceAgrees_iff, State.moved_trace, sinceReset_append fun x hx => Transfer.isReset_of_isAccess (hu x hx),
    countP_isEnd_append hsymbol, List.countP_append, hok]
  exact ⟨hsource.append hsymbol, hends, hwr, hevents.append fun x hx => Transfer.isEvent_of_isAccess (hu x hx)⟩

theorem TraceAgrees.event (kind : EventKind) (info : BitVec 8) : TraceAgrees (s.event kind info) := by
  obtain ⟨hsource, hends, hwr, hevents⟩ := (traceAgrees_iff s).mp h
  have hsymbol : ∀ x ∈ [Transfer.event kind info], x.isSymbol = false := by simp [Transfer.isSymbol]
  have hok : [Transfer.event kind info].countP Transfer.isOk = 0 := rfl
  rw [traceAgrees_iff, State.event_trace, sinceReset_append (by simp), countP_isEnd_append hsymbol, List.countP_append,
    hok, State.event_counters, countEvent_wr]
  exact ⟨hsource.append hsymbol, hends, hwr, hevents.event kind info⟩

/-- A transaction answered OK is recorded and counted together (R45, R66). -/
theorem TraceAgrees.written (bytes : List Byte) : TraceAgrees (written bytes s) := by
  obtain ⟨hsource, hends, hwr, hevents⟩ := (traceAgrees_iff s).mp h
  have htrace : (Machine.written bytes s).trace = s.trace ++ [.sink bytes .ok] := rfl
  have hsymbol : ∀ x ∈ [Transfer.sink bytes .ok], x.isSymbol = false := by simp [Transfer.isSymbol]
  rw [traceAgrees_iff, htrace, sinceReset_append (by simp), countP_isEnd_append hsymbol, List.countP_append]
  refine ⟨hsource.append hsymbol, hends, ?_, hevents.append (by simp [Transfer.isEvent])⟩
  exact (congrArg (inc s.params) hwr).trans (inc_mod _ _)

theorem TraceAgrees.failed (bytes : List Byte) : TraceAgrees (s.log (.sink bytes .fail)) := by
  obtain ⟨hsource, hends, hwr, hevents⟩ := (traceAgrees_iff s).mp h
  have hsymbol : ∀ x ∈ [Transfer.sink bytes .fail], x.isSymbol = false := by simp [Transfer.isSymbol]
  rw [traceAgrees_iff, State.log_trace, sinceReset_append (by simp), countP_isEnd_append hsymbol, List.countP_append]
  exact ⟨hsource.append hsymbol, hends, hwr, hevents.append (by simp [Transfer.isEvent])⟩

theorem TraceAgrees.goto {ph : Phase} (hc : s.status.haltCause = .none) (hph : ph.isFinal = s.phase.isFinal) :
    TraceAgrees (s.goto ph) :=
  { h with
    ends := (endsAgree_iff (s := s.goto ph) hc).mpr (by rw [State.goto_phase, hph]; exact (endsAgree_iff hc).mp h.ends) }

theorem TraceAgrees.halt {cause : HaltCause} (he : ∀ n, s.endsAgree n → (s.halt cause).endsAgree n) :
    TraceAgrees (s.halt cause) := { h with ends := he _ h.ends }

theorem TraceAgrees.haltBounds (hc : s.status.haltCause = .none) (hph : s.phase.isFinal = false) :
    TraceAgrees (s.halt .bounds) :=
  h.halt fun n hn => by
    have hzero : n = 0 := by simpa [endsAgree_iff hc, hph] using hn
    exact hzero

theorem TraceAgrees.haltClean {cause : CleanCause} (hc : s.status.haltCause = .none) (hph : s.phase.isFinal = true) :
    TraceAgrees (s.halt (cleanHalt cause)) :=
  h.halt fun n hn => by
    have hone : n = 1 := by simpa [endsAgree_iff hc, hph] using hn
    cases cause <;> exact hone

theorem TraceAgrees.access {i : Instr} (hinv : Inv s) (hi : IsAccess i) (he : exec i s = .next t) : TraceAgrees t := by
  rcases exec_access_cases hi he with rfl | ⟨-, c, rfl⟩ | ⟨-, -, rfl⟩ | ⟨hidle, -, rfl⟩ | ⟨x, hx, rfl⟩
  · exact h
  · exact { h with }
  · exact { h with }
  · have hzero := (endsAgree_iff (hinv.cause_none (by simp [hidle]))).mp h.ends
    obtain ⟨-, -, hphase⟩ := hinv.at_idle hidle
    rw [hphase] at hzero
    exact { h with ends := hzero }
  · exact h.moved (by simpa using hx)

/-- The byte has been recorded by the fetch; the operation puts it into the window. -/
theorem TraceAgrees.byteTaken {e : Env} {w : BitVec 10} (hinv : Inv s) (hp : s.phase = .idle) (hr : s.running = true)
    (hw : w.extractLsb' 8 2 = 0) : TraceAgrees (byteTaken (w.extractLsb' 0 8) (s.moved e [.source w])) := by
  obtain ⟨hsource, hends, hwr, hevents⟩ := (traceAgrees_iff s).mp h
  have hc := hinv.cause_none (State.running_ne hr).2
  have htrace : (Machine.byteTaken (w.extractLsb' 0 8) (s.moved e [.source w])).trace = s.trace ++ [.source w] := rfl
  have hphase : (Machine.byteTaken (w.extractLsb' 0 8) (s.moved e [.source w])).phase.isFinal = false := by
    unfold Machine.byteTaken
    dsimp only
    split <;> rfl
  have hnotEnd : (Transfer.source w).isEnd = false := by simp [Transfer.isEnd, hw]
  rw [traceAgrees_iff, htrace, sinceReset_append (by simp)]
  refine ⟨hsource.byte hinv.winWf hw, ?_, ?_, hevents.append (by simp [Transfer.isEvent])⟩
  · have hzero := (endsAgree_iff hc).mp hends
    rw [endsAgree_iff (by exact hc), hphase, List.countP_append, hzero, hp]
    simp [hnotEnd, Phase.isFinal]
  · rw [List.countP_append]
    exact hwr

theorem TraceAgrees.sourceEnd {e : Env} {w : BitVec 10} {cause : CleanCause} (hinv : Inv s) (hp : s.phase = .idle)
    (hr : s.running = true) (hw : (Transfer.source w).isEnd = true) :
    TraceAgrees ((s.moved e [.source w]).dropWindow.goto (.final cause)) := by
  obtain ⟨hsource, hends, hwr, hevents⟩ := (traceAgrees_iff s).mp h
  have hzero := (endsAgree_iff (hinv.cause_none (State.running_ne hr).2)).mp hends
  have htrace : ((s.moved e [.source w]).dropWindow.goto (.final cause)).trace = s.trace ++ [.source w] := rfl
  rw [traceAgrees_iff, htrace, sinceReset_append (by simp), List.countP_append, List.countP_append, hzero, hp]
  refine ⟨hsource.ended hw, ?_, hwr, hevents.append (by simp [Transfer.isEvent])⟩
  simp [State.endsAgree, Phase.isFinal, hw]

theorem TraceAgrees.symbol {i : Instr} {e : Env} {w : BitVec 10} (hinv : Inv s) (hp : s.phase = .idle)
    (hr : s.running = true) (hd : decodeSym w = .ok i) (he : exec i (s.moved e [.source w]) = .next t) :
    TraceAgrees t := by
  have hr' : (s.moved e [.source w]).running = true := hr
  rcases decodeSym_cases hd with ⟨hw, rfl⟩ | ⟨hw, rfl⟩ | ⟨hw, rfl⟩
  · obtain ⟨-, rfl⟩ := execSrcByte_next hr' he
    exact h.byteTaken hinv hp hr hw
  · cases (execSrcEos_running hr').symm.trans he
    exact h.sourceEnd hinv hp hr (by simp [Transfer.isEnd, hw])
  · cases (execSrcErr_running hr').symm.trans he
    exact h.sourceEnd hinv hp hr (by simp [Transfer.isEnd, hw])

theorem TraceAgrees.enterResync : TraceAgrees s.enterResync := by
  unfold State.enterResync
  split_ifs
  · exact h
  · have hmarked : TraceAgrees { s with sync := { s.sync with resync := true } } := { h with }
    exact hmarked.event _ _

theorem TraceAgrees.slideWindow (hwf : s.sync.win.wf = true) (hfull : s.sync.fill = tsSize) :
    TraceAgrees s.slideWindow := by
  obtain ⟨hsource, hends, hwr, hevents⟩ := (traceAgrees_iff s).mp h
  have hslid := hsource.slid hwf hfull
  rw [traceAgrees_iff]
  simp only [State.slideWindow_params, State.slideWindow_sync, State.slideWindow_trace, State.slideWindow_counters,
    State.slideWindow_diag, State.endsAgree, State.slideWindow_phase, State.slideWindow_status]
  exact ⟨hslid, hends, hwr, hevents⟩

theorem TraceAgrees.evaluateWindow (hinv : Inv s) (hp : s.phase = .window)
    (he : exec (decodeWindow (windowHeader s.sync.win)) s = .next t) : TraceAgrees t := by
  obtain ⟨hr, hfull, -⟩ := hinv.at_window hp
  have hc := hinv.cause_none (State.running_ne hr).2
  unfold decodeWindow at he
  split at he
  case isTrue =>
    cases he
    obtain ⟨hsource, -, -, -⟩ := (traceAgrees_iff s).mp h
    obtain ⟨hpos, hempty, hconsumed⟩ := hsource.yielded
    exact { h.goto (ph := .packet (s.sync.win.readN 0 tsSize)) hc (by rw [hp]; rfl) with
      srcPos := hpos, window := hempty, consumed := hconsumed }
  case isFalse =>
    cases he
    have hslid := h.enterResync.slideWindow (by simpa using hinv.winWf) (by simpa using hfull)
    exact hslid.goto (by simpa using hc) (by simp [hp, Phase.isFinal])

theorem TraceAgrees.gateAndCheck (p : Packet) : TraceAgrees (s.gateAndCheck p) := by
  have hopened : TraceAgrees (s.openGate p) := by
    rcases openGate_cases p s with ⟨-, e⟩ | ⟨-, e⟩
    · rw [e]
      exact { h with }
    · rw [e]
      exact h
  rcases continuity_cases p (s.openGate p) with ⟨-, e⟩ | ⟨-, e⟩
  · rw [State.gateAndCheck, e]
    exact { hopened.event _ _ with }
  · rw [State.gateAndCheck, e]
    exact { hopened with }

theorem TraceAgrees.handOver {p : Packet} {start : Int} (hc : s.status.haltCause = .none) (hp : s.phase = .packet p)
    (he : handOver p start s = .next t) : TraceAgrees t := by
  rcases handOver_cases p start s with ⟨-, -, e⟩ | ⟨-, e⟩
  · cases e.symm.trans he
    exact { h.goto (ph := .absorb (spanFrom p start)) hc (by rw [hp]; rfl) with }
  · cases e.symm.trans he
    exact h.haltBounds hc (by rw [hp]; rfl)

theorem TraceAgrees.packet {p : Packet} (hinv : Inv s) (hp : s.phase = .packet p)
    (he : exec (classify s.ctx p) s = .next t) : TraceAgrees t := by
  have hc := hinv.cause_none (State.running_ne (hinv.at_packet hp).1).2
  have hover : TraceAgrees (s.goto .idle) := h.goto hc (by rw [hp]; rfl)
  have hchecked := h.gateAndCheck p
  have hc' : (s.gateAndCheck p).status.haltCause = .none := by simpa using hc
  have hp' : (s.gateAndCheck p).phase = .packet p := by simpa using hp
  rcases classify_cases s.ctx p with e | e | e | e | e | e
  all_goals rw [e] at he
  · cases he
    exact hover
  · cases he
    exact hover
  · exact (hchecked.event .tei 0).handOver (start := teiStart) hc' hp' he
  · exact hchecked.handOver hc' hp' he
  · exact hchecked.handOver hc' hp' he
  · cases he
    exact hchecked.haltBounds hc' (by rw [hp']; rfl)

theorem TraceAgrees.refilled {buf : Memory} {len : Nat} (hc : s.status.haltCause = .none)
    (hp : s.phase.isFinal = false) : TraceAgrees (refilled buf len s) := by
  have hphase : (loopPhase s.params len).isFinal = s.phase.isFinal := by
    rw [hp, loopPhase]
    split <;> rfl
  exact { h.goto hc hphase with }

theorem TraceAgrees.absorb {span : List Byte} (hinv : Inv s) (hp : s.phase = .absorb span)
    (he : exec (decodeFramer s.sel.mode (.absorb span)) s = .next t) : TraceAgrees t := by
  have hc := hinv.cause_none (by rw [(hinv.at_absorb hp).1]; decide)
  cases hmode : s.sel.mode with
  | na =>
    rw [hmode] at he
    obtain ⟨-, rfl⟩ := execFrmNaAppend_next he
    exact h.refilled hc (by rw [hp]; rfl)
  | ni =>
    rw [hmode] at he
    rcases execFrmNiWrite_next he with ⟨-, rfl⟩ | ⟨-, rfl⟩
    · exact h.goto hc (by rw [hp]; rfl)
    · exact h.goto hc (by rw [hp]; rfl)

theorem TraceAgrees.drain (hinv : Inv s) (hp : s.phase = .drain) (he : exec .frmNaFlush s = .next t) :
    TraceAgrees t := by
  cases (execFrmNaFlush_eq s).symm.trans he
  exact h.goto (hinv.cause_none (by rw [(hinv.at_drain hp).1]; decide)) (by rw [hp]; rfl)

theorem TraceAgrees.final {cause : CleanCause} (hinv : Inv s) (hp : s.phase = .final cause)
    (he : exec (.frmFinal cause) s = .next t) : TraceAgrees t := by
  have hc := hinv.cause_none (State.running_ne (hinv.at_final hp).1).2
  rcases execFrmFinal_next he with ⟨-, -, rfl⟩ | rfl
  · exact h.goto hc (by rw [hp]; rfl)
  · exact h.haltClean hc (by rw [hp]; rfl)

theorem TraceAgrees.answer {caller : Caller} {bytes : List Byte} {v : BitVec 1} (hinv : Inv s)
    (hp : s.phase = .sink caller bytes) (he : exec (decodeRsp v) s = .next t) : TraceAgrees t := by
  have hc := hinv.cause_none (by rw [(hinv.at_sink hp).1]; decide)
  unfold decodeRsp at he
  split_ifs at he
  · rw [execSnkOk_sink hp] at he
    have hwritten := h.written bytes
    have hp' : (Machine.written bytes s).phase = .sink caller bytes := hp
    cases caller with
    | naFlush =>
      cases shiftChunk_next he
      exact hwritten.refilled hc (by rw [hp']; rfl)
    | niWrite =>
      cases he
      exact hwritten.goto hc (by rw [hp']; rfl)
    | final cause =>
      cases he
      exact { hwritten.haltClean (cause := cause) hc (by rw [hp']; rfl) with }
  · cases (execSnkFail_sink hp).symm.trans he
    exact (h.failed bytes).halt fun n hn => hn.le_one

end

/-! ## Every operation of a step -/

theorem TraceAgrees.runs {s t : State} {i : Instr} {e : Env} {u : List Transfer} (h : TraceAgrees s) (hinv : Inv s)
    (hr : Runs s i e u) (he : exec i (s.moved e u) = .next t) : TraceAgrees t := by
  have hinv' := hinv.moved e u
  have hquiet : u = [] → TraceAgrees (s.moved e u) := fun hu => h.moved (by simp [hu])
  cases hr with
  | reset hx => cases he; exact .resetCore (by simp [hx])
  | access hp hi hu => exact (h.moved hu).access hinv' hi he
  | symbol hp hrun hd => exact h.symbol hinv hp hrun hd he
  | window hp => exact (hquiet rfl).evaluateWindow hinv' hp he
  | packet hp _ => exact (hquiet rfl).packet hinv' hp he
  | absorb hp => exact (hquiet rfl).absorb hinv' hp he
  | drain hp => exact (hquiet rfl).drain hinv' hp he
  | final hp => exact (hquiet rfl).final hinv' hp he
  | answer hp => exact (hquiet rfl).answer hinv' hp he

theorem TraceAgrees.step {s t : State} (h : TraceAgrees s) (hinv : Inv s) (hstep : step s = .next t) :
    TraceAgrees t := by
  rcases step_cases hstep with ⟨e, u, rfl, -, -, hu⟩ | ⟨i, e, u, -, hr, he⟩
  · exact h.moved hu
  · exact h.runs hinv hr he

end Sys2Proof.Machine

open Sys2Proof Sys2Proof.Machine

/-- Settles O49, operation by operation, with the counts of the transfers each makes. -/
theorem stepKeepsCountersInAgreementWithTheTrace : Obligations.StepKeepsCountersInAgreementWithTheTrace :=
  fun _ _ hinv h hstep => h.step hinv hstep

/-- Settles O46: the reset state is its own RESET, with no transfer made. -/
theorem invariantHoldsAtReset : Obligations.InvariantHoldsAtReset :=
  ⟨Inv.resetCore (s := State.reset) (by decide), TraceAgrees.resetCore (s := State.reset) rfl⟩

end

section
/-! PROOFS. What every operation but the host's leaves alone: the configuration, the selector and the record so far; and
which sink transactions it records. -/

namespace Sys2Proof.Machine

/-- The transaction an operation completes: the one outstanding, where it is the sink's answer. -/
def answered (i : Instr) (ph : Phase) : List (List Byte × Response) :=
  match i, ph with
  | .snkOk, .sink _ bytes => [(bytes, .ok)]
  | .snkFail, .sink _ bytes => [(bytes, .fail)]
  | _, _ => []

/-- From `s` to `t` the record grows by transfers whose sink transactions are `xs`. -/
def Grows (xs : List (List Byte × Response)) (s t : State) : Prop :=
  ∃ v, t.trace = s.trace ++ v ∧ transactionsOf v = xs

theorem Grows.refl (s : State) : Grows [] s s := ⟨[], by simp, rfl⟩

theorem Grows.of_moved {e : Env} {u : List Transfer} (s : State) : Grows (transactionsOf u) s (s.moved e u) := ⟨u, rfl, rfl⟩

theorem Grows.trans {xs ys : List (List Byte × Response)} {s t u : State} (h : Grows xs s t) (h' : Grows ys t u) :
    Grows (xs ++ ys) s u := by
  obtain ⟨v, hv, rfl⟩ := h
  obtain ⟨v', hv', rfl⟩ := h'
  exact ⟨v ++ v', by rw [hv', hv, List.append_assoc], transactionsOf_append v v'⟩

/-- The run goes on from `s` to `t`: configuration and selector stay, and the record grows by the transactions `xs`. -/
structure Continues (xs : List (List Byte × Response)) (s t : State) : Prop where
  sel : t.sel = s.sel
  cfg : t.cfg = s.cfg
  grows : Grows xs s t

theorem Continues.silent {s t : State} (hsel : t.sel = s.sel) (hcfg : t.cfg = s.cfg) (h : t.trace = s.trace) :
    Continues [] s t := ⟨hsel, hcfg, [], by simpa using h, rfl⟩

theorem Continues.trans {xs ys : List (List Byte × Response)} {s t u : State} (h : Continues xs s t)
    (h' : Continues ys t u) : Continues (xs ++ ys) s u :=
  ⟨h'.sel.trans h.sel, h'.cfg.trans h.cfg, h.grows.trans h'.grows⟩

theorem continues_event (kind : EventKind) (info : BitVec 8) (s : State) : Continues [] s (s.event kind info) :=
  ⟨rfl, rfl, [.event kind info], rfl, rfl⟩

theorem continues_gateAndCheck (p : Packet) (s : State) : Continues [] s (s.gateAndCheck p) := by
  have hopened : Continues [] s (s.openGate p) := .silent (by simp) (by simp) (by simp)
  rcases continuity_cases p (s.openGate p) with ⟨-, e⟩ | ⟨-, e⟩
  · rw [State.gateAndCheck, e]
    exact hopened.trans ((continues_event _ _ _).trans (.silent rfl rfl rfl))
  · rw [State.gateAndCheck, e]
    exact hopened.trans (.silent rfl rfl rfl)

theorem continues_enterResync (s : State) : Continues [] s s.enterResync := by
  unfold State.enterResync
  split
  · exact .silent rfl rfl rfl
  · exact ⟨rfl, rfl, [.event .syncLoss 0], rfl, rfl⟩

theorem continues_handOver {p : Packet} {start : Int} {s t : State} (h : handOver p start s = .next t) :
    Continues [] s t := by
  rcases handOver_cases p start s with ⟨-, -, e⟩ | ⟨-, e⟩
  all_goals
    cases e.symm.trans h
    exact .silent rfl rfl rfl

theorem continues_afterOk {caller : Caller} {s t : State} (h : afterOk caller s = .next t) : Continues [] s t := by
  cases caller with
  | naFlush => cases shiftChunk_next h; exact .silent rfl rfl rfl
  | niWrite => cases h; exact .silent rfl rfl rfl
  | final cause => cases h; exact .silent rfl rfl rfl

/-- Every operation but the host's goes on with the run, and records the sink transaction it answers and no other. -/
theorem exec_continues {i : Instr} {s t : State} (hreset : i ≠ .hostReset) (haccess : ¬ IsAccess i)
    (h : exec i s = .next t) : Continues (answered i s.phase) s t := by
  cases i with
  | hostReset => exact absurd rfl hreset
  | hostStart => exact absurd (.inl rfl) haccess
  | hostCfgwrPid w => exact absurd (.inr (.inl ⟨w, rfl⟩)) haccess
  | hostCfgwrOffset w => exact absurd (.inr (.inr (.inl ⟨w, rfl⟩))) haccess
  | hostCfgwrCtrl w => exact absurd (.inr (.inr (.inr (.inl ⟨w, rfl⟩)))) haccess
  | hostRd addr => exact absurd (.inr (.inr (.inr (.inr ⟨addr, rfl⟩)))) haccess
  | srcByte b =>
    simp only [exec, execSrcByte] at h
    split_ifs at h
    all_goals
      cases h
      exact .silent rfl rfl rfl
  | srcEos =>
    simp only [exec, execSrcEos] at h
    split at h
    all_goals
      cases h
      exact .silent rfl rfl rfl
  | srcErr =>
    simp only [exec, execSrcErr] at h
    split at h
    all_goals
      cases h
      exact .silent rfl rfl rfl
  | winValid w => cases h; exact .silent rfl rfl rfl
  | winInvalid w =>
    cases h
    exact (continues_enterResync s).trans (.silent (by simp) (by simp) (by simp))
  | pktDrop p => cases h; exact .silent rfl rfl rfl
  | pktSkip p => cases h; exact .silent rfl rfl rfl
  | pktFwdTei p =>
    have hreported := (continues_gateAndCheck p s).trans (continues_event .tei 0 _)
    exact hreported.trans (continues_handOver (start := teiStart) h)
  | pktFwdPos p => exact (continues_gateAndCheck p s).trans (continues_handOver h)
  | pktFwdNeg p => exact (continues_gateAndCheck p s).trans (continues_handOver h)
  | pktBounds p => cases h; exact (continues_gateAndCheck p s).trans (.silent rfl rfl rfl)
  | frmNaAppend span => cases (execFrmNaAppend_next h).2; exact .silent rfl rfl rfl
  | frmNaFlush => cases (execFrmNaFlush_eq s).symm.trans h; exact .silent rfl rfl rfl
  | frmNiWrite span => rcases execFrmNiWrite_next h with ⟨-, rfl⟩ | ⟨-, rfl⟩ <;> exact .silent rfl rfl rfl
  | frmFinal cause => rcases execFrmFinal_next h with ⟨-, -, rfl⟩ | rfl <;> exact .silent rfl rfl rfl
  | snkOk =>
    cases hp : s.phase with
    | sink caller bytes =>
      rw [execSnkOk_sink hp] at h
      have hwritten : Continues [(bytes, .ok)] s (written bytes s) := ⟨rfl, rfl, [.sink bytes .ok], rfl, rfl⟩
      exact hwritten.trans (continues_afterOk h)
    | _ => simp only [exec, execSnkOk, hp] at h; cases h
  | snkFail =>
    cases hp : s.phase with
    | sink caller bytes =>
      cases (execSnkFail_sink hp).symm.trans h
      exact ⟨rfl, rfl, [.sink bytes .fail], rfl, rfl⟩
    | _ => simp only [exec, execSnkFail, hp] at h; cases h

end Sys2Proof.Machine
end

section
/-! PROOFS. Diagnostics never influence the data path: a fetch and an operation, and so a step, answer alike in states that
differ in diagnostics alone, and make the same sink transactions. -/

namespace Sys2Proof.Machine

section
variable (s : State)

@[simp] theorem State.erase_params : s.erase.params = s.params := rfl
@[simp] theorem State.erase_sync : s.erase.sync = s.sync := rfl
@[simp] theorem State.erase_framer : s.erase.framer = s.framer := rfl
@[simp] theorem State.erase_status : s.erase.status = s.status := rfl
@[simp] theorem State.erase_cfg : s.erase.cfg = s.cfg := rfl
@[simp] theorem State.erase_sel : s.erase.sel = s.sel := rfl
@[simp] theorem State.erase_phase : s.erase.phase = s.phase := rfl
@[simp] theorem State.erase_env : s.erase.env = s.env := rfl
@[simp] theorem State.erase_trace : s.erase.trace = [] := rfl
@[simp] theorem State.erase_running : s.erase.running = s.running := rfl
@[simp] theorem State.erase_passTurn : s.erase.passTurn = s.passTurn.erase := rfl

end

/-! ## A fetch sees no diagnostics -/

/-- What a fetch from the erased state finds, carried over to the state itself: the erased record holds the new transfers
alone. -/
def Fetched.resume (s : State) : Fetched → Fetched
  | .wait q => .wait (s.moved q.env q.trace)
  | .word w q => .word w (s.moved q.env q.trace)

theorem Fetched.resume_passTurn (s : State) (f : Fetched) : f.resume s.passTurn = f.resume s := by
  cases f <;> rfl

theorem Fetched.resume_wait (s : State) : (Fetched.wait s.erase).resume s = .wait s :=
  congrArg Fetched.wait s.eq_moved.symm

theorem Fetched.resume_word (s : State) (w : PortWord) : (Fetched.word w s.erase).resume s = .word w s :=
  congrArg (Fetched.word w) s.eq_moved.symm

theorem fetchHost_erase (s : State) : (fetchHost s.erase).resume s = fetchHost s := by
  unfold fetchHost
  rw [State.erase_env]
  cases s.env.host with
  | nil => exact Fetched.resume_wait s
  | cons x xs => rfl

theorem fetchSource_erase (s : State) : (fetchSource s.erase).resume s = fetchSource s := by
  unfold fetchSource
  rw [State.erase_running, State.erase_env]
  split
  · cases s.env.source with
    | nil => exact Fetched.resume_wait s
    | cons v vs => rfl
  · exact Fetched.resume_wait s

theorem fetchStalled_erase (s : State) : (fetchStalled s.erase).resume s = fetchStalled s := by
  unfold fetchStalled
  rw [State.erase_env]
  cases s.env.host with
  | nil => exact Fetched.resume_wait s
  | cons x xs =>
    dsimp only
    split
    · exact fetchHost_erase s
    · exact Fetched.resume_wait s

theorem fetchAnswer_erase (s : State) : (fetchAnswer s.erase).resume s = fetchAnswer s := by
  unfold fetchAnswer
  rw [State.erase_env]
  cases s.env.answers with
  | nil => exact fetchStalled_erase s
  | cons v vs => exact congrArg (Fetched.word _) (afterAnswer_eq_moved s vs).symm

theorem fetchInput_erase (s : State) : (fetchInput s.erase).resume s = fetchInput s := by
  unfold fetchInput
  rw [State.erase_env, State.erase_passTurn, ← Fetched.resume_passTurn]
  cases s.env.mover with
  | host => exact fetchHost_erase s.passTurn
  | source => exact fetchSource_erase s.passTurn

theorem fetch_erase (s : State) : (fetch s.erase).resume s = fetch s := by
  unfold fetch
  rw [State.erase_phase]
  cases s.phase with
  | idle => exact fetchInput_erase s
  | sink caller bytes => exact fetchAnswer_erase s
  | _ => exact Fetched.resume_word s _

/-! ## An operation uses no diagnostics -/

/-- An outcome without the diagnostics of the next state. -/
def eraseNext : Result → Result
  | .next t => .next t.erase
  | .fault r => .fault r
  | .refused r => .refused r

/-- What answers next without diagnostics answers next with them. -/
theorem eq_next_of_eraseNext {r : Result} {t : State} (h : eraseNext r = .next t.erase) :
    ∃ t', r = .next t' ∧ t'.erase = t.erase := by
  cases r with
  | next t' => exact ⟨t', rfl, Host.Outcome.next.inj h⟩
  | fault f => cases h
  | refused f => cases h

@[simp] theorem State.erase_event (kind : EventKind) (info : BitVec 8) (s : State) :
    (s.event kind info).erase = s.erase := rfl

@[simp] theorem State.erase_log (x : Transfer) (s : State) : (s.log x).erase = s.erase := rfl

@[simp] theorem State.erase_recordCc (cc : Cc) (s : State) : (s.recordCc cc).erase = s.erase := rfl

@[simp] theorem State.erase_continuity (p : Packet) (s : State) : (s.continuity p).erase = s.erase := by
  rcases continuity_cases p s with ⟨-, e⟩ | ⟨-, e⟩ <;> rw [e] <;> rfl

theorem State.erase_openGate (p : Packet) (s : State) : (s.openGate p).erase = s.erase.openGate p := by
  unfold State.openGate
  rw [State.erase_sel, State.erase_framer]
  split <;> rfl

/-- The gate looks at no diagnostics, and the continuity check changes nothing else (R29, R186). -/
theorem State.erase_gateAndCheck (p : Packet) (s : State) : (s.gateAndCheck p).erase = (s.erase.gateAndCheck p).erase := by
  simp only [State.gateAndCheck, State.erase_continuity, State.erase_openGate]
  rfl

theorem State.erase_enterResync (s : State) : s.enterResync.erase = s.erase.enterResync.erase := by
  unfold State.enterResync
  rw [State.erase_sync]
  split <;> rfl

theorem State.erase_slideWindow (s : State) : s.slideWindow.erase = s.erase.slideWindow := by
  unfold State.slideWindow
  rfl

/-- Both ways of a test that sees no diagnostics. -/
theorem eraseNext_ite {c c' : Prop} [Decidable c] [Decidable c'] {a b a' b' : Result} (hc : c ↔ c')
    (ha : eraseNext a = eraseNext a') (hb : eraseNext b = eraseNext b') :
    eraseNext (if c then a else b) = eraseNext (if c' then a' else b') := by
  by_cases h : c
  · rw [if_pos h, if_pos (hc.mp h), ha]
  · rw [if_neg h, if_neg (mt hc.mpr h), hb]

theorem eraseNext_handOver (p : Packet) (start : Int) {s s' : State} (h : s.erase = s'.erase) :
    eraseNext (handOver p start s) = eraseNext (handOver p start s') :=
  eraseNext_ite .rfl (congrArg (fun q : State => Host.Outcome.next (q.goto (.absorb (spanFrom p start)))) h)
    (congrArg (fun q : State => Host.Outcome.next (q.halt .bounds)) h)

theorem eraseNext_shiftChunk (s : State) : eraseNext (shiftChunk s) = eraseNext (shiftChunk s.erase) := by
  have hread : memRead .buf s.params.chunkSize (s.framer.bufLen - s.params.chunkSize) s.erase =
      memRead .buf s.params.chunkSize (s.framer.bufLen - s.params.chunkSize) s := rfl
  simp only [shiftChunk, State.erase_params, State.erase_framer, hread]
  split <;> rfl

theorem eraseNext_afterOk (caller : Caller) (s : State) :
    eraseNext (afterOk caller s) = eraseNext (afterOk caller s.erase) := by
  cases caller with
  | naFlush => exact eraseNext_shiftChunk s
  | niWrite => rfl
  | final cause => rfl

theorem exec_erase (i : Instr) (s : State) : eraseNext (exec i s) = eraseNext (exec i s.erase) := by
  have hchecked (p : Packet) := State.erase_gateAndCheck p s
  cases i with
  | hostReset => rfl
  | hostStart => exact eraseNext_ite .rfl (eraseNext_ite .rfl rfl rfl) rfl
  | hostCfgwrPid w => exact eraseNext_ite .rfl rfl rfl
  | hostCfgwrOffset w => exact eraseNext_ite .rfl rfl rfl
  | hostCfgwrCtrl w => exact eraseNext_ite .rfl rfl rfl
  | hostRd addr =>
    have hlogged := (State.erase_log (.regRead addr (readReg addr s)) s).trans
      (State.erase_log (.regRead addr (readReg addr s.erase)) s.erase).symm
    exact congrArg Host.Outcome.next hlogged
  | srcByte b => exact eraseNext_ite .rfl (eraseNext_ite .rfl rfl rfl) rfl
  | srcEos => exact eraseNext_ite .rfl rfl rfl
  | srcErr => exact eraseNext_ite .rfl rfl rfl
  | winValid h => rfl
  | winInvalid h =>
    have hslid : s.enterResync.slideWindow.erase = s.erase.enterResync.slideWindow.erase := by
      rw [State.erase_slideWindow, State.erase_enterResync, ← State.erase_slideWindow]
    exact congrArg (fun q : State => Host.Outcome.next (q.goto .idle)) hslid
  | pktDrop p => rfl
  | pktSkip p => rfl
  | pktFwdTei p => exact eraseNext_handOver p teiStart (hchecked p)
  | pktFwdPos p => exact eraseNext_handOver p (posStart s p) (hchecked p)
  | pktFwdNeg p => exact eraseNext_handOver p (negStart s) (hchecked p)
  | pktBounds p => exact congrArg (fun q : State => Host.Outcome.next (q.halt .bounds)) (hchecked p)
  | frmNaAppend span =>
    have hwrite : memWrite .buf s.framer.bufLen span s.erase = memWrite .buf s.framer.bufLen span s := rfl
    simp only [exec, execFrmNaAppend, State.erase_framer, hwrite]
    split <;> rfl
  | frmNaFlush =>
    simp only [exec, execFrmNaFlush_eq]
    rfl
  | frmNiWrite span => exact eraseNext_ite .rfl rfl rfl
  | frmFinal cause =>
    have hread : memRead .buf 0 s.framer.bufLen s.erase = memRead .buf 0 s.framer.bufLen s := rfl
    refine eraseNext_ite .rfl ?_ rfl
    simp only [State.erase_framer, hread]
    split <;> rfl
  | snkOk =>
    simp only [exec, execSnkOk, State.erase_phase]
    split
    case h_1 caller bytes _ =>
      exact (eraseNext_afterOk caller (written bytes s)).trans (eraseNext_afterOk caller (written bytes s.erase)).symm
    case h_2 => rfl
  | snkFail =>
    simp only [exec, execSnkFail, State.erase_phase]
    split <;> rfl

/-! ## A step -/

theorem answered_access {i : Instr} (hi : IsAccess i) (ph : Phase) : answered i ph = [] := by
  rcases hi with rfl | ⟨w, rfl⟩ | ⟨w, rfl⟩ | ⟨w, rfl⟩ | ⟨addr, rfl⟩ <;> rfl

/-- Every operation records the sink transaction it answers and no other. -/
theorem exec_grows {i : Instr} {s t : State} (h : exec i s = .next t) : Grows (answered i s.phase) s t := by
  by_cases hreset : i = .hostReset
  · subst hreset
    cases h
    exact ⟨[], by simp, rfl⟩
  by_cases haccess : IsAccess i
  · rw [answered_access haccess]
    rcases exec_access_cases haccess h with rfl | ⟨-, c, rfl⟩ | ⟨-, -, rfl⟩ | ⟨-, -, rfl⟩ | ⟨x, hx, rfl⟩
    · exact .refl t
    · exact ⟨[], by simp, rfl⟩
    · exact ⟨[], by simp, rfl⟩
    · exact ⟨[], by simp [startHalted], rfl⟩
    · exact ⟨[x], rfl, by simp [transactionsOf, Transfer.transaction_of_isAccess hx]⟩
  · exact (exec_continues hreset haccess h).grows

theorem State.ctx_of_erase_eq {s s' : State} (h : s.erase = s'.erase) : s.ctx = s'.ctx := (congrArg State.ctx h :)

/-- After the same transfers, states that differ in diagnostics alone still do. -/
theorem State.moved_of_erase_eq {s s' : State} (h : s.erase = s'.erase) (e : Env) (u : List Transfer) :
    (s.moved e u).erase = (s'.moved e u).erase := congrArg (fun q : State => { q with env := e }) h

/-- States that differ in diagnostics alone run an operation to such states, with the same sink transactions. -/
theorem exec_of_erase_eq {i : Instr} {s s' t : State} (h : s.erase = s'.erase) (he : exec i s = .next t) :
    ∃ t', exec i s' = .next t' ∧ t'.erase = t.erase ∧
      Grows (answered i s.phase) s t ∧ Grows (answered i s.phase) s' t' := by
  have hphase : s.phase = s'.phase := (congrArg State.phase h :)
  have hsame : eraseNext (exec i s') = .next t.erase := by
    rw [exec_erase, ← h, ← exec_erase, he]
    rfl
  obtain ⟨t', he', hte⟩ := eq_next_of_eraseNext hsame
  exact ⟨t', he', hte, exec_grows he, hphase ▸ exec_grows he'⟩

theorem step_of_erase_eq {s s' t : State} (h : s.erase = s'.erase) (hstep : step s = .next t) :
    ∃ t' xs, step s' = .next t' ∧ t'.erase = t.erase ∧ Grows xs s t ∧ Grows xs s' t' := by
  have hf : fetch s = (fetch s.erase).resume s := (fetch_erase s).symm
  have hf' : fetch s' = (fetch s.erase).resume s' := by rw [h, fetch_erase]
  cases hfetch : fetch s.erase with
  | wait q =>
    rw [hfetch] at hf hf'
    have hmoved := State.moved_of_erase_eq h q.env q.trace
    simp only [step, hf, Fetched.resume] at hstep
    cases hstep
    exact ⟨_, _, by simp only [step, hf', Fetched.resume], hmoved.symm, Grows.of_moved s, Grows.of_moved s'⟩
  | word w q =>
    rw [hfetch] at hf hf'
    have hmoved := State.moved_of_erase_eq h q.env q.trace
    have hctx := State.ctx_of_erase_eq hmoved
    simp only [step, hf, Fetched.resume] at hstep
    cases hd : decode (s.moved q.env q.trace).ctx w with
    | ok i =>
      rw [hd] at hstep
      obtain ⟨t', he', hte, hg, hg'⟩ := exec_of_erase_eq hmoved hstep
      exact ⟨t', _, by simp only [step, hf', Fetched.resume, ← hctx, hd, he'], hte, (Grows.of_moved s).trans hg,
        (Grows.of_moved s').trans hg'⟩
    | error err =>
      rw [hd] at hstep
      cases err with
      | noEffectWrite =>
        cases hstep
        exact ⟨_, _, by simp only [step, hf', Fetched.resume, ← hctx, hd, undecoded], hmoved.symm, Grows.of_moved s,
          Grows.of_moved s'⟩
      | reservedSymbol => cases hstep
      | notAPacket => cases hstep

end Sys2Proof.Machine

open Sys2Proof Sys2Proof.Machine

/-- Settles O59: fetch, decoder and operations see the erased state alone, and the bytes delivered are those of the
transactions. -/
theorem diagnosticsNeverInfluenceTheDataPath : Obligations.DiagnosticsNeverInfluenceTheDataPath := by
  intro s s' t h hstep
  obtain ⟨t', xs, hstep', hte, ⟨u, hu, hxs⟩, ⟨u', hu', hxs'⟩⟩ := step_of_erase_eq h hstep
  have hsame : transactionsOf u' = transactionsOf u := hxs'.trans hxs.symm
  have hdelivered : deliveredOf u' = deliveredOf u := by rw [deliveredOf_eq_flatten, deliveredOf_eq_flatten, hsame]
  exact ⟨t', u, u', hstep', hte, hu, hu', hsame, hdelivered⟩

end

section
/-! PROOFS. Outside IDLE the setup of the run stays, and in HALTED everything but the host's accesses is over. -/

namespace Sys2Proof.Machine

/-- Outside IDLE an access changes the inputs and the record alone (R38, R280). -/
theorem exec_access_outside_idle {i : Instr} {s t : State} (hi : IsAccess i) (hne : s.framer.fsm ≠ .idle)
    (h : exec i s = .next t) : ∃ u, t = s.moved s.env u ∧ ∀ x ∈ u, x.isAccess = true := by
  rcases exec_access_cases hi h with rfl | ⟨hidle, -⟩ | ⟨hidle, -⟩ | ⟨hidle, -⟩ | ⟨x, hx, rfl⟩
  · exact ⟨[], t.eq_moved, by simp⟩
  iterate 3 exact absurd hidle hne
  · exact ⟨[x], rfl, by simpa using hx⟩

/-- In HALTED a step other than RESET lets the host make an access, and no more. -/
theorem step_of_halted {s t : State} (h : Inv s) (hhalted : s.framer.fsm = .halted) (hstep : step s = .next t)
    (hno : s.nextInstr ≠ some .hostReset) :
    ∃ e u, t = s.moved e u ∧ e.source = s.env.source ∧ e.answers = s.env.answers ∧ ∀ x ∈ u, x.isAccess = true := by
  have hidle := h.haltedIdle hhalted
  rcases step_cases hstep with hwait | ⟨i, e, u, hnext, hr, he⟩
  · exact hwait
  · cases hr with
    | reset => exact absurd hnext hno
    | access hp hi hu =>
      obtain ⟨v, rfl, hv⟩ := exec_access_outside_idle hi (by simp [hhalted]) he
      refine ⟨_, _, State.moved_moved _ _ _ v s, rfl, rfl, fun x hx => ?_⟩
      exact (List.mem_append.mp hx).elim (hu x) (hv x)
    | symbol _ hrun => exact absurd hhalted (State.running_ne hrun).2
    | window hp => cases hidle.symm.trans hp
    | packet hp => cases hidle.symm.trans hp
    | absorb hp => cases hidle.symm.trans hp
    | drain hp => cases hidle.symm.trans hp
    | final hp => cases hidle.symm.trans hp
    | answer hp => cases hidle.symm.trans hp

theorem deliveredOf_access {u : List Transfer} (hu : ∀ x ∈ u, x.isAccess = true) : deliveredOf u = [] := by
  have hnone : transactionsOf u = [] :=
    List.filterMap_eq_nil_iff.mpr fun x hx => Transfer.transaction_of_isAccess (hu x hx)
  rw [deliveredOf_eq_flatten, hnone]
  rfl

theorem eventCount_access {u : List Transfer} (hu : ∀ x ∈ u, x.isAccess = true) (kind : EventKind) :
    eventCount kind u = 0 :=
  List.countP_eq_zero.mpr fun x hx => by simp [Transfer.isEvent_of_isAccess (hu x hx)]

end Sys2Proof.Machine

open Sys2Proof Sys2Proof.Machine

/-- Settles O52: outside IDLE an access other than RESET is ignored, and every other operation keeps the setup. -/
theorem selectorIsImmutableForTheRun : Obligations.SelectorIsImmutableForTheRun := by
  intro s t hne hstep hno
  rcases step_cases hstep with ⟨e, u, rfl, -⟩ | ⟨i, e, u, hnext, -, he⟩
  · exact ⟨rfl, rfl⟩
  · by_cases haccess : IsAccess i
    · obtain ⟨v, rfl, -⟩ := exec_access_outside_idle (s := s.moved e u) haccess hne he
      exact ⟨rfl, rfl⟩
    · have hgoes := exec_continues (fun hi => hno (hi ▸ hnext)) haccess he
      exact ⟨hgoes.sel, hgoes.cfg⟩

/-- Settles O53: what is left in HALTED is accesses of the host, which deliver and report nothing. -/
theorem haltedIsTerminal : Obligations.HaltedIsTerminal := by
  intro s t hinv hhalted hstep hno
  obtain ⟨e, u, rfl, hsource, hanswers, hu⟩ := step_of_halted hinv hhalted hstep hno
  refine ⟨rfl, hsource, hanswers, ?_, fun kind => ?_⟩
  · rw [State.delivered, State.moved_trace, sinceReset_append fun x hx => Transfer.isReset_of_isAccess (hu x hx),
      deliveredOf_append, deliveredOf_access hu, List.append_nil, State.delivered]
  · rw [State.moved_trace, eventCount_append, eventCount_access hu, Nat.add_zero]

end

section
/-! PROOFS. The register port: the words read (R35, R37), the writes (R36, R37) and the reset values (R20, R44). -/

namespace Sys2Proof.Machine

/-! ## Fields of a register word -/

/-- A word holds the number `a`, below bit `m`. -/
def Holds (x : Word) (m a : Nat) : Prop := x.toNat = a ∧ a < 2 ^ m

theorem toNat_place {n lo : Nat} (v : BitVec n) (hn : lo + n ≤ 64) : (place v lo).toNat = v.toNat <<< lo := by
  have hv : v.toNat < 2 ^ n := v.isLt
  have hn64 : 2 ^ n ≤ 2 ^ 64 := Nat.pow_le_pow_right (by decide) (by omega)
  have hshift : v.toNat <<< lo < 2 ^ 64 := by
    rw [Nat.shiftLeft_eq]
    calc v.toNat * 2 ^ lo < 2 ^ n * 2 ^ lo := Nat.mul_lt_mul_of_pos_right hv (Nat.two_pow_pos lo)
      _ = 2 ^ (n + lo) := (Nat.pow_add 2 n lo).symm
      _ ≤ 2 ^ 64 := Nat.pow_le_pow_right (by decide) (by omega)
  rw [place, BitVec.toNat_shiftLeft, BitVec.toNat_setWidth, Nat.mod_eq_of_lt (hv.trans_le hn64), Nat.mod_eq_of_lt hshift]

/-- The lowest field of a word. -/
theorem holds_place {n : Nat} (v : BitVec n) (hn : n ≤ 64) : Holds (place v 0) n v.toNat :=
  ⟨by rw [toNat_place v (by omega), Nat.shiftLeft_zero], v.isLt⟩

/-- A further field above those a word holds already. -/
theorem Holds.or_place {x : Word} {m a n : Nat} (h : Holds x m a) (v : BitVec n) (lo : Nat) (hm : m ≤ lo)
    (hn : lo + n ≤ 64) : Holds (x ||| place v lo) (lo + n) (a + 2 ^ lo * v.toNat) := by
  obtain ⟨hx, ha⟩ := h
  have hlow : a < 2 ^ lo := ha.trans_le (Nat.pow_le_pow_right (by decide) hm)
  have hv : v.toNat + 1 ≤ 2 ^ n := v.isLt
  constructor
  · rw [BitVec.toNat_or, toNat_place v hn, hx, Nat.or_comm, ← Nat.shiftLeft_add_eq_or_of_lt hlow, Nat.shiftLeft_eq]
    ring
  · calc a + 2 ^ lo * v.toNat < 2 ^ lo + 2 ^ lo * v.toNat := Nat.add_lt_add_right hlow _
      _ = 2 ^ lo * (v.toNat + 1) := by ring
      _ ≤ 2 ^ lo * 2 ^ n := Nat.mul_le_mul_left _ hv
      _ = 2 ^ (lo + n) := (Nat.pow_add 2 lo n).symm

theorem toNat_ofBool (b : Bool) : (BitVec.ofBool b).toNat = b.toNat := by cases b <;> rfl

theorem toNat_modeCode (m : Mode) : (Mode.code m).toNat = if m = .ni then 1 else 0 := by cases m <;> rfl

/-- A counter of at most 64 bits is read in full (R37, R45). -/
theorem toNat_counter {k : Params} {c : Nat} (hk : k.ok) (hc : fits k c) : (BitVec.ofNat 64 c).toNat = c := by
  obtain ⟨-, -, hcntW⟩ := hk
  have hwidth : 2 ^ k.cntW ≤ 2 ^ 64 := Nat.pow_le_pow_right (by decide) hcntW
  exact Nat.mod_eq_of_lt (Nat.lt_of_lt_of_le hc hwidth)

/-- FILL is at most 188, at every place of an operation (R22). -/
theorem Inv.fill_le {s : State} (h : Inv s) : s.sync.fill ≤ tsSize := by
  rcases h.fillRange with hp | hf
  · obtain ⟨-, hfull, -⟩ := h.at_window hp
    exact hfull.le
  · exact hf.le

/-- Beyond the last register, between registers and at CTRL the port reads 0 (R36, R37). -/
theorem readReg_unmapped {addr : BitVec 8} (ha : 120 < addr.toNat ∨ addr.toNat % 8 ≠ 0 ∨ addr.toNat = 0) (s : State) :
    readReg addr s = 0 := by
  have hne (b : BitVec 8) (hb : ¬ (120 < b.toNat ∨ b.toNat % 8 ≠ 0 ∨ b.toNat = 0)) : addr ≠ b := fun e => hb (e ▸ ha)
  unfold readReg
  iterate 15 rw [if_neg (hne _ (by decide))]

end Sys2Proof.Machine

open Sys2Proof Sys2Proof.Machine

/-- Settles O10: each register is the sum of its fields, and the invariant bounds the counters and FILL. -/
theorem registerMapReads : Obligations.RegisterMapReads := by
  intro s h
  have hcounter {c : Nat} (hc : fits s.params c) : (BitVec.ofNat 64 c).toNat = c := toNat_counter h.paramsOk hc
  have hctrl := ((holds_place (Mode.code s.cfg.mode) (by decide)).or_place (.ofBool s.cfg.ofsExpl) 1 (by decide)
    (by decide)).1
  have hsel := (((holds_place s.sel.pid (by decide)).or_place s.sel.offset 16 (by decide) (by decide)).or_place
    (Mode.code s.sel.mode) 32 (by decide) (by decide)).1
  have hevents := (((holds_place (.ofBool s.diag.evSyncLoss) (by decide)).or_place (.ofBool s.diag.evCcDisc) 1
    (by decide) (by decide)).or_place (.ofBool s.diag.evTei) 2 (by decide) (by decide)).1
  refine ⟨(holds_place s.cfg.pid (by decide)).1, (holds_place s.cfg.offset (by decide)).1, hctrl.trans ?ctrl,
    hsel.trans ?sel, hevents.trans ?events, hcounter h.srcPosFits, hcounter h.pktReadFits, hcounter h.pktFwdFits,
    hcounter h.wrFits, hcounter h.syncLossFits, hcounter h.ccDiscFits, hcounter h.teiFits, Nat.mod_eq_of_lt,
    Nat.mod_eq_of_lt ?fill, fun addr ha => readReg_unmapped ha s⟩
  case ctrl =>
    rw [toNat_modeCode, toNat_ofBool]
    cases s.cfg.ofsExpl <;> rfl
  case sel =>
    rw [toNat_modeCode, Nat.mul_comm (2 ^ 16)]
    cases s.sel.mode <;> rfl
  case events =>
    rw [toNat_ofBool, toNat_ofBool, toNat_ofBool]
    cases s.diag.evSyncLoss <;> cases s.diag.evCcDisc <;> cases s.diag.evTei <;> rfl
  case fill => exact h.fill_le.trans_lt (by decide)

/-- Settles O11: STATUS is the sum of its ten fields. -/
theorem statusWordFields : Obligations.StatusWordFields := by
  intro s
  have hword := ((((((((((holds_place (Fsm.code s.framer.fsm) (by decide)).or_place
    (HaltCause.code s.status.haltCause) 4 (by decide) (by decide)).or_place
    (.ofBool s.status.pidRange) 8 (by decide) (by decide)).or_place
    (.ofBool s.status.ofsRange) 9 (by decide) (by decide)).or_place
    (.ofBool s.status.modeOfs) 10 (by decide) (by decide)).or_place
    (.ofBool s.sync.resync) 12 (by decide) (by decide)).or_place
    (.ofBool s.extractor.lastCcValid) 13 (by decide) (by decide)).or_place
    (if s.extractor.lastCcValid then s.extractor.lastCc else 0) 16 (by decide) (by decide)).or_place
    (.ofBool s.done) 24 (by decide) (by decide)).or_place
    (.ofBool s.failed) 25 (by decide) (by decide)).1
  have hcc : (if s.extractor.lastCcValid then s.extractor.lastCc else 0).toNat =
      if s.extractor.lastCcValid = true then s.extractor.lastCc.toNat else 0 := by split <;> rfl
  have hdone : s.done = decide (s.framer.fsm = .halted) := rfl
  have hfailed : s.failed = decide (s.status.haltCause = .cfgError ∨ s.status.haltCause = .bounds ∨
      s.status.haltCause = .writeFail) := by
    unfold State.failed
    cases s.status.haltCause <;> rfl
  refine hword.trans ?_
  simp only [toNat_ofBool, hcc, hdone, hfailed]
  cases s.framer.fsm <;> cases s.status.haltCause <;> rfl

/-- Settles O7, address by address. -/
theorem writesSelectByAddress : Obligations.WritesSelectByAddress := by
  intro c addr w
  have hreset : w.getLsbD 1 = decide (w.toNat / 2 % 2 = 1) := Nat.testBit_eq_decide_div_mod_eq
  have hstart : w.getLsbD 0 = decide (w.toNat % 2 = 1) := Nat.testBit_zero w.toNat
  refine ⟨?_, fun s => rfl⟩
  simp only [decode, decodeReg, Bool.true_eq_false, if_false, hreset, hstart, decide_eq_true_eq, ← BitVec.toNat_inj,
    BitVec.reduceToNat]

/-- Settles O8: the fetch records the write, and the decoder's answer leaves it at that. -/
theorem writeWithoutEffectChangesNothing : Obligations.WriteWithoutEffectChangesNothing := by
  intro s addr w xs hp hmover hhost hd
  have hf : fetch s = .word (.reg true addr w) (afterHost s (.access true addr w) xs) := by
    simp only [fetch, hp, fetchInput, hmover, fetchHost, State.passTurn_env, hhost]
    rfl
  have hd' : decode (afterHost s (.access true addr w) xs).ctx (.reg true addr w) = .error .noEffectWrite := hd
  simp only [step, hf, hd', undecoded]
  rfl

/-- Settles O1, element by element of R20. -/
theorem resetHasTheSpecValues : Obligations.ResetHasTheSpecValues := by
  refine ⟨?_, rfl, rfl⟩
  constructor <;> decide

end

section
/-! PROOFS. What no operation changes: the parameters and the inputs to come. From these the source's symbols (R62, R64) and
the length of a transaction (R67, R68). -/

namespace Sys2Proof.Machine

/-! ## The parameters and the inputs to come -/

/-- From `s` to `t` the build's parameters and the inputs still to come stay. -/
structure KeepsInputs (s t : State) : Prop where
  params : t.params = s.params
  env : t.env = s.env

theorem KeepsInputs.of_gateAndCheck {p : Packet} {s t : State} (h : KeepsInputs (s.gateAndCheck p) t) : KeepsInputs s t :=
  ⟨by simpa using h.params, by simpa using h.env⟩

theorem keepsInputs_handOver {p : Packet} {start : Int} {s t : State} (h : handOver p start s = .next t) :
    KeepsInputs s t := by
  rcases handOver_cases p start s with ⟨-, -, e⟩ | ⟨-, e⟩
  all_goals
    cases e.symm.trans h
    exact ⟨rfl, rfl⟩

theorem keepsInputs_afterOk {caller : Caller} {s t : State} (h : afterOk caller s = .next t) : KeepsInputs s t := by
  cases caller with
  | naFlush => cases shiftChunk_next h; exact ⟨rfl, rfl⟩
  | niWrite => cases h; exact ⟨rfl, rfl⟩
  | final cause => cases h; exact ⟨rfl, rfl⟩

theorem keepsInputs_access {i : Instr} {s t : State} (hi : IsAccess i) (h : exec i s = .next t) : KeepsInputs s t := by
  rcases exec_access_cases hi h with rfl | ⟨-, c, rfl⟩ | ⟨-, -, rfl⟩ | ⟨-, -, rfl⟩ | ⟨x, -, rfl⟩ <;> exact ⟨rfl, rfl⟩

/-- No operation takes an input itself: a fetch does, before the operation runs. -/
theorem exec_keepsInputs {i : Instr} {s t : State} (h : exec i s = .next t) : KeepsInputs s t := by
  cases i with
  | hostReset => cases h; exact ⟨rfl, rfl⟩
  | hostStart => exact keepsInputs_access (.inl rfl) h
  | hostCfgwrPid w => exact keepsInputs_access (.inr (.inl ⟨w, rfl⟩)) h
  | hostCfgwrOffset w => exact keepsInputs_access (.inr (.inr (.inl ⟨w, rfl⟩))) h
  | hostCfgwrCtrl w => exact keepsInputs_access (.inr (.inr (.inr (.inl ⟨w, rfl⟩)))) h
  | hostRd addr => exact keepsInputs_access (.inr (.inr (.inr (.inr ⟨addr, rfl⟩)))) h
  | srcByte b =>
    simp only [exec, execSrcByte] at h
    split_ifs at h
    all_goals
      cases h
      exact ⟨rfl, rfl⟩
  | srcEos =>
    simp only [exec, execSrcEos] at h
    split at h
    all_goals
      cases h
      exact ⟨rfl, rfl⟩
  | srcErr =>
    simp only [exec, execSrcErr] at h
    split at h
    all_goals
      cases h
      exact ⟨rfl, rfl⟩
  | winValid w => cases h; exact ⟨rfl, rfl⟩
  | winInvalid w => cases h; exact ⟨by simp, by simp⟩
  | pktDrop p => cases h; exact ⟨rfl, rfl⟩
  | pktSkip p => cases h; exact ⟨rfl, rfl⟩
  | pktFwdTei p =>
    obtain ⟨hparams, henv⟩ := keepsInputs_handOver (start := teiStart) h
    exact .of_gateAndCheck ⟨hparams, henv⟩
  | pktFwdPos p => exact .of_gateAndCheck (keepsInputs_handOver h)
  | pktFwdNeg p => exact .of_gateAndCheck (keepsInputs_handOver h)
  | pktBounds p => cases h; exact .of_gateAndCheck ⟨rfl, rfl⟩
  | frmNaAppend span => cases (execFrmNaAppend_next h).2; exact ⟨rfl, rfl⟩
  | frmNaFlush => cases (execFrmNaFlush_eq s).symm.trans h; exact ⟨rfl, rfl⟩
  | frmNiWrite span => rcases execFrmNiWrite_next h with ⟨-, rfl⟩ | ⟨-, rfl⟩ <;> exact ⟨rfl, rfl⟩
  | frmFinal cause => rcases execFrmFinal_next h with ⟨-, -, rfl⟩ | rfl <;> exact ⟨rfl, rfl⟩
  | snkOk =>
    cases hp : s.phase with
    | sink caller bytes =>
      rw [execSnkOk_sink hp] at h
      obtain ⟨hparams, henv⟩ := keepsInputs_afterOk h
      exact ⟨hparams, henv⟩
    | _ => simp only [exec, execSnkOk, hp] at h; cases h
  | snkFail =>
    cases hp : s.phase with
    | sink caller bytes => cases (execSnkFail_sink hp).symm.trans h; exact ⟨rfl, rfl⟩
    | _ => simp only [exec, execSnkFail, hp] at h; cases h

theorem step_params {s t : State} (h : step s = .next t) : t.params = s.params := by
  rcases step_cases h with ⟨e, u, rfl, -⟩ | ⟨i, e, u, -, -, he⟩
  · rfl
  · exact (exec_keepsInputs he).params

/-! ## The source's queue -/

/-- A fetch leaves the source's symbols alone, or takes the next one and records it while the core reads (R62, R64). -/
theorem fetch_word_source {s s1 : State} {w : PortWord} (h : fetch s = .word w s1) :
    s1.env.source = s.env.source ∨
    (s.running = true ∧ s.phase = .idle ∧ ∃ v, s.env.source = v :: s1.env.source ∧ s1.trace = s.trace ++ [.source v]) := by
  rcases fetch_word h with ⟨-, x, xs, -, -, rfl⟩ | ⟨hp, hr, v, vs, hv, -, rfl⟩ | ⟨-, -, rfl⟩ | ⟨p, -, -, rfl⟩ |
    ⟨span, -, -, rfl⟩ | ⟨-, -, rfl⟩ | ⟨cause, -, -, rfl⟩ | ⟨caller, bytes, -, v, vs, -, -, rfl⟩ |
    ⟨caller, bytes, -, -, x, xs, -, -, -, rfl⟩
  · exact .inl rfl
  · exact .inr ⟨hr, hp, v, hv, rfl⟩
  all_goals exact .inl rfl

/-! ## What is outstanding at the sink -/

section
variable {s : State} {bytes : List Byte} (h : Inv s)
include h

theorem Inv.naFlush_bytes (hp : s.phase = .sink .naFlush bytes) : bytes = s.framer.buf.readN 0 s.params.chunkSize := by
  have hok := h.phaseOk
  simp only [State.phaseOk, hp] at hok
  obtain ⟨-, -, -, -, hbytes⟩ := hok
  exact hbytes

theorem Inv.niWrite_length (hp : s.phase = .sink .niWrite bytes) : 1 ≤ bytes.length ∧ bytes.length ≤ 184 := by
  have hok := h.phaseOk
  simp only [State.phaseOk, hp] at hok
  obtain ⟨-, -, -, hpos, hle⟩ := hok
  exact ⟨hpos, hle⟩

theorem Inv.sinkFinal_bytes {cause : CleanCause} (hp : s.phase = .sink (.final cause) bytes) :
    0 < s.framer.bufLen ∧ s.framer.bufLen < s.params.chunkSize ∧ bytes = s.buffered := by
  have hok := h.phaseOk
  simp only [State.phaseOk, hp] at hok
  obtain ⟨-, -, -, hcontent⟩ := hok
  exact hcontent

end

end Sys2Proof.Machine

open Sys2Proof Sys2Proof.Machine

/-- Settles O15: the fetch takes the symbol, and the operation then only adds to the record. -/
theorem symbolsAreConsumedInOrderOnlyWhileReading : Obligations.SymbolsAreConsumedInOrderOnlyWhileReading := by
  intro s t hstep
  rcases step_next hstep with hw | ⟨w, s1, i, hf, -, he⟩ | ⟨w, hf, -⟩
  · rcases fetch_wait hw with rfl | ⟨-, rfl⟩ <;> exact .inl rfl
  · obtain ⟨v, hv, -⟩ := exec_grows he
    rw [(exec_keepsInputs he).env]
    rcases fetch_word_source hf with hkept | ⟨hr, hp, x, hx, htrace⟩
    · exact .inl hkept
    · exact .inr ⟨hr, hp, x, hx, v, by rw [hv, htrace]⟩
  · rcases fetch_word_source hf with hkept | ⟨hr, hp, x, hx, htrace⟩
    · exact .inl hkept
    · exact .inr ⟨hr, hp, x, hx, by rw [htrace]⟩

/-- Settles O56: the invariant after the step says of an outstanding transaction what it was read from. -/
theorem transactionLengths : Obligations.TransactionLengths := by
  intro s t caller bytes hinv hstep hp
  have ht : Inv t := hinv.step hstep
  rw [← step_params hstep]
  refine ⟨?naFlush, ?final, ?niWrite⟩
  case naFlush =>
    rintro rfl
    rw [ht.naFlush_bytes hp, Memory.readN_length]
  case final =>
    rintro cause rfl
    obtain ⟨hpos, hlt, rfl⟩ := ht.sinkFinal_bytes hp
    have hlen : t.buffered.length = t.framer.bufLen := Memory.readN_length _ _ _
    omega
  case niWrite =>
    rintro rfl
    exact ht.niWrite_length hp

end

section
/-! PROOFS. The beats of a transaction on the sink port, and the sink's and the source's operations at the places where no
step runs them. -/

namespace Sys2Proof.Machine

/-- `snk_last` is set on the beat of the last byte alone (R66). -/
theorem sinkBeats_last {v : List Byte} {i : Nat} (hi : i < v.length) :
    ((sinkBeats v).getD i (0, false)).2 = decide (i + 1 = v.length) := by
  fun_induction sinkBeats v generalizing i with
  | case1 => cases hi
  | case2 b =>
    obtain rfl : i = 0 := Nat.lt_one_iff.mp hi
    rfl
  | case3 b bs hbs ih =>
    cases i with
    | zero =>
      simpa using hbs
    | succ i =>
      have htail := ih (Nat.lt_of_succ_lt_succ hi)
      simpa using htail

/-- Outside a run the core does not read (R64). -/
theorem State.not_running {s : State} (h : s.framer.fsm = .idle ∨ s.framer.fsm = .halted) : ¬ s.running = true :=
  fun hr => h.elim (State.running_ne hr).1 (State.running_ne hr).2

end Sys2Proof.Machine

open Sys2Proof Sys2Proof.Machine

/-- Settles O41, by induction on the bytes: `snk_last` is said of each beat by its place. -/
theorem transactionBeatsMarkTheLastByte : Obligations.TransactionBeatsMarkTheLastByte :=
  fun v _ => ⟨sinkBeats_bytes v, fun _ hi => sinkBeats_last hi⟩

/-- Settles O14: all three test whether the core reads. -/
theorem sourceOperationsDoNothingOutsideARun : Obligations.SourceOperationsDoNothingOutsideARun := by
  intro s b hfsm
  have hno := State.not_running hfsm
  exact ⟨if_neg hno, if_neg hno, if_neg hno⟩

/-- Settles O39: the answer looks at the transaction, never at the caller. -/
theorem failedWriteHaltsTheRun : Obligations.FailedWriteHaltsTheRun := fun _ _ _ hp => execSnkFail_sink hp

/-- Settles O40, place by place. -/
theorem answerWithoutTransactionFaults : Obligations.AnswerWithoutTransactionFaults := by
  intro s hno
  cases hp : s.phase with
  | sink caller bytes => exact absurd hp (hno caller bytes)
  | _ => simp only [exec, execSnkOk, execSnkFail, hp, and_self]

end

section
/-! PROOFS. Progress: in a state of the invariant a step runs every word it fetches, but for the reserved symbol (R62, R107). -/

namespace Sys2Proof.Machine

/-! ## The host's inputs -/

/-- A host input is at worst a write without effect (R36, R37). -/
theorem decode_host_error {x : HostInput} {c : ClassCtx} {err : DecodeError} (h : decode c (hostWord x).1 = .error err) :
    err = .noEffectWrite := by
  cases x with
  | rst => cases h
  | access we addr wdata =>
    cases we with
    | false => cases h
    | true =>
      simp only [hostWord, decode, decodeReg, Bool.true_eq_false, if_false] at h
      split_ifs at h <;> cases h <;> rfl

theorem writeCfg_progress (c : CfgState) (s : State) : ∃ t, writeCfg c s = .next t := by
  unfold writeCfg
  split <;> exact ⟨_, rfl⟩

theorem exec_access_progress {i : Instr} (hi : IsAccess i) (s : State) : ∃ t, exec i s = .next t := by
  rcases hi with rfl | ⟨w, rfl⟩ | ⟨w, rfl⟩ | ⟨w, rfl⟩ | ⟨addr, rfl⟩
  · simp only [exec, execHostStart]
    split_ifs <;> exact ⟨_, rfl⟩
  · exact writeCfg_progress _ s
  · exact writeCfg_progress _ s
  · exact writeCfg_progress _ s
  · exact ⟨_, rfl⟩

theorem step_host_progress {s s1 : State} {x : HostInput} (hf : fetch s = .word (hostWord x).1 s1) :
    ∃ t, step s = .next t := by
  cases hd : decode s1.ctx (hostWord x).1 with
  | ok i =>
    rw [step_of_decode hf hd]
    rcases decode_host hd with ⟨rfl, -⟩ | ⟨hi, -⟩
    · exact ⟨_, rfl⟩
    · exact exec_access_progress hi s1
  | error err =>
    cases decode_host_error hd
    exact ⟨s1, by simp only [step, hf, hd, undecoded]⟩

/-! ## A source symbol -/

/-- The kind of a symbol is `w / 256`; 3 is the reserved one (R62, R99). -/
theorem decodeSym_error {w : BitVec 10} {err : DecodeError} (h : decodeSym w = .error err) :
    err = .reservedSymbol ∧ 768 ≤ w.toNat := by
  have hkind : (w.extractLsb' 8 2).toNat = w.toNat / 256 := by
    rw [BitVec.extractLsb'_toNat, Nat.shiftRight_eq_div_pow]
    have := w.isLt
    omega
  unfold decodeSym at h
  simp only [← BitVec.toNat_inj, hkind, BitVec.reduceToNat] at h
  split_ifs at h
  cases h
  exact ⟨rfl, by omega⟩

/-- The window has room for a byte wherever the core takes one (R22, R161). -/
theorem exec_symbol_progress {s : State} {i : Instr} {w : BitVec 10} (hr : s.running = true) (hfill : s.sync.fill < tsSize)
    (hd : decodeSym w = .ok i) : ∃ t, exec i s = .next t := by
  rcases decodeSym_cases hd with ⟨-, rfl⟩ | ⟨-, rfl⟩ | ⟨-, rfl⟩
  · exact ⟨byteTaken _ s, (if_pos hr).trans (if_pos hfill)⟩
  · exact ⟨_, execSrcEos_running hr⟩
  · exact ⟨_, execSrcErr_running hr⟩

/-- At the source's turn the step takes the symbol, or refuses the reserved one. -/
theorem step_symbol_progress {s : State} {v : BitVec 10} {vs : List (BitVec 10)} (hr : s.running = true)
    (hfill : s.sync.fill < tsSize) (hf : fetch s = .word (.sym v) (afterSource s v vs)) :
    (∃ t, step s = .next t) ∨ (step s = .refused .reservedSymbol ∧ 768 ≤ v.toNat) := by
  cases hd : decode (afterSource s v vs).ctx (.sym v) with
  | ok i =>
    left
    rw [step_of_decode hf hd]
    exact exec_symbol_progress hr hfill hd
  | error err =>
    right
    obtain ⟨rfl, hv⟩ := decodeSym_error hd
    exact ⟨by simp only [step, hf, hd, undecoded], hv⟩

/-! ## The framer and the sink -/

theorem step_absorb_progress {s : State} {span : List Byte} (h : Inv s) (hp : s.phase = .absorb span) :
    ∃ t, step s = .next t := by
  obtain ⟨-, -, hroom, hspan, -⟩ := h.at_absorb hp
  rw [step_of_absorb hp]
  cases s.sel.mode with
  | na =>
    have hfit : s.framer.bufLen + span.length ≤ s.params.bufCap := by
      simp only [spanMax, tsSize] at hspan
      rw [Params.bufCap_eq]
      omega
    exact ⟨_, execFrmNaAppend_eq hfit⟩
  | ni =>
    simp only [decodeFramer, exec, execFrmNiWrite]
    split <;> exact ⟨_, rfl⟩

theorem step_final_progress {s : State} {cause : CleanCause} (h : Inv s) (hp : s.phase = .final cause) :
    ∃ t, step s = .next t := by
  rw [step_of_final hp]
  rcases execFrmFinal_cases cause h.bufCap with e | e
  · exact ⟨_, e⟩
  · exact ⟨_, e⟩

/-- The surplus behind a chunk lies inside BUF (R215). -/
theorem shiftChunk_progress {s : State} (hdue : s.params.chunkSize ≤ s.framer.bufLen)
    (hcap : s.framer.bufLen ≤ s.params.bufCap) : ∃ t, shiftChunk s = .next t := by
  have hread := memRead_eq_some (sp := .buf) (addr := s.params.chunkSize) (n := s.framer.bufLen - s.params.chunkSize)
    (s := s) |>.mpr ⟨by simp only [Space.size]; omega, rfl⟩
  simp only [shiftChunk, hread]
  exact ⟨_, rfl⟩

theorem exec_answer_progress {s : State} {caller : Caller} {bytes : List Byte} (h : Inv s)
    (hp : s.phase = .sink caller bytes) (v : BitVec 1) : ∃ t, exec (decodeRsp v) s = .next t := by
  unfold decodeRsp
  split
  case isTrue =>
    rw [execSnkOk_sink hp]
    cases caller with
    | naFlush => exact shiftChunk_progress (s := written bytes s) (h.at_naFlush hp).2 h.bufCap
    | niWrite => exact ⟨_, rfl⟩
    | final cause => exact ⟨_, rfl⟩
  case isFalse => exact ⟨_, execSnkFail_sink hp⟩

/-! ## A step -/

/-- Place by place: only the source's turn can end in a refusal. -/
theorem step_progress {s : State} (h : Inv s) :
    (∃ t, step s = .next t) ∨
    (step s = .refused .reservedSymbol ∧ s.running = true ∧ s.phase = .idle ∧
      ∃ w ws, s.env.source = w :: ws ∧ 768 ≤ w.toNat) := by
  cases hf : fetch s with
  | wait s1 => exact .inl ⟨s1, by simp only [step, hf]⟩
  | word w s1 =>
    rcases fetch_word hf with ⟨-, x, xs, -, rfl, -⟩ | ⟨hp, hr, v, vs, hv, rfl, rfl⟩ | ⟨hp, -, -⟩ | ⟨p, hp, -, -⟩ |
      ⟨span, hp, -, -⟩ | ⟨hp, -, -⟩ | ⟨cause, hp, -, -⟩ | ⟨caller, bytes, hp, v, vs, -, rfl, rfl⟩ |
      ⟨caller, bytes, -, -, x, xs, -, -, rfl, -⟩
    · exact .inl (step_host_progress hf)
    · have hfill : s.sync.fill < tsSize := h.fillRange.resolve_left (by simp [hp])
      exact (step_symbol_progress hr hfill hf).imp_right fun ⟨hrefused, hreserved⟩ =>
        ⟨hrefused, hr, hp, v, vs, hv, hreserved⟩
    · obtain ⟨t, hstep, -⟩ := step_window_next hp
      exact .inl ⟨t, hstep⟩
    · obtain ⟨-, hvalid, -⟩ := h.at_packet hp
      obtain ⟨t, hstep, -⟩ := step_packet_next hp hvalid h.offset_range.1
      exact .inl ⟨t, hstep⟩
    · exact .inl (step_absorb_progress h hp)
    · exact .inl ⟨_, (step_of_drain hp).trans (execFrmNaFlush_eq s)⟩
    · exact .inl (step_final_progress h hp)
    · left
      rw [step_of_decode (i := decodeRsp v) hf rfl, afterAnswer_eq_moved]
      exact exec_answer_progress (h.moved _ _) hp v
    · exact .inl (step_host_progress hf)

end Sys2Proof.Machine

open Sys2Proof Sys2Proof.Machine

/-- Settles O48, by the places a fetched word can come from. -/
theorem stepNeverFaults : Obligations.StepNeverFaults := fun _ h => step_progress h

end

section
/-! PROOFS. The extracted stream of a run, `delivered ++ buffered ++ inHand`: what each operation does to it (R70, R78, R216). -/

namespace Sys2Proof.Machine

/-! ## The stream by its parts -/

/-- The bytes in hand at a place inside an operation. -/
def Phase.inHand : Phase → List Byte
  | .absorb span => span
  | .sink .niWrite bytes => bytes
  | _ => []

theorem State.inHand_eq (s : State) : s.inHand = s.phase.inHand := rfl

/-- The stream stays where its three parts do. -/
theorem State.stream_congr {s t : State} (hd : t.delivered = s.delivered) (hb : t.buffered = s.buffered)
    (hh : t.phase.inHand = s.phase.inHand) : t.stream = s.stream := by
  simp only [State.stream, State.inHand_eq, hd, hb, hh]

/-- With nothing in hand the stream is what is delivered and what is buffered. -/
theorem State.stream_of_inHand_nil {s : State} (hh : s.phase.inHand = []) : s.stream = s.delivered ++ s.buffered := by
  rw [State.stream, State.inHand_eq, hh, List.append_nil]

theorem loopPhase_inHand (k : Params) (len : Nat) : (loopPhase k len).inHand = [] := by
  unfold loopPhase
  split <;> rfl

theorem refilled_stream (buf : Memory) (len : Nat) (s : State) :
    (refilled buf len s).stream = s.delivered ++ buf.readN 0 len :=
  State.stream_of_inHand_nil (s := refilled buf len s) (loopPhase_inHand s.params len)

/-- Transfers that are no RESET add to the output what they deliver. -/
theorem State.delivered_append {s t : State} {u : List Transfer} (h : t.trace = s.trace ++ u)
    (hu : ∀ x ∈ u, x.isReset = false) : t.delivered = s.delivered ++ deliveredOf u := by
  rw [State.delivered, h, sinceReset_append hu, deliveredOf_append, State.delivered]

theorem State.moved_stream {s : State} {e : Env} {u : List Transfer} (hu : ∀ x ∈ u, x.isAccess = true) :
    (s.moved e u).stream = s.stream := by
  have hd := (s.delivered_append (s.moved_trace e u) fun x hx => Transfer.isReset_of_isAccess (hu x hx) :)
  rw [deliveredOf_access hu, List.append_nil] at hd
  exact State.stream_congr hd rfl rfl

/-! ## Bytes in BUF -/

/-- Bytes written behind the first `n` follow them. -/
theorem Memory.readN_writeN_append {m : Memory} (h : m.wf = true) (n : Nat) (bs : List Byte) :
    (m.writeN n bs).readN 0 (n + bs.length) = m.readN 0 n ++ bs := by
  have hkept : (m.writeN n bs).readN 0 n = m.readN 0 n :=
    Memory.readN_congr fun x _ hx => Memory.read_writeN_outside h n bs (.inl (by omega))
  rw [Memory.readN_add, hkept, Nat.zero_add, Memory.readN_writeN h]

/-- The bytes behind the first `n`, moved to the front (R213). -/
theorem Memory.readN_shift {m : Memory} (h : m.wf = true) {n len : Nat} (hn : n ≤ len) :
    m.readN 0 n ++ (m.writeN 0 (m.readN n (len - n))).readN 0 (len - n) = m.readN 0 len := by
  have hfront := Memory.readN_writeN h 0 (m.readN n (len - n))
  rw [Memory.readN_length] at hfront
  have hsplit := Memory.readN_add m 0 n (len - n)
  rw [Nat.zero_add, Nat.add_sub_cancel' hn] at hsplit
  rw [hfront, hsplit]

/-! ## RESET and the host's accesses -/

/-- RESET empties the output, the buffer and the hand (R121). -/
theorem resetCore_stream {s : State} {e : Env} {x : Transfer} (hx : x.isReset = true) :
    (s.moved e [x]).resetCore.stream = [] := by
  have hd : (s.moved e [x]).resetCore.delivered = [] :=
    (State.delivered_concat (s := s) rfl).trans (if_pos hx)
  rw [State.stream_of_inHand_nil rfl, hd]
  rfl

/-- Only the host selects HOST.RESET, and its transfer is one that performs RESET. -/
theorem Runs.transfer_of_reset {s : State} {i : Instr} {e : Env} {u : List Transfer} (hr : Runs s i e u)
    (hi : i = .hostReset) : ∃ x : Transfer, u = [x] ∧ x.isReset = true := by
  cases hr with
  | reset hx => exact ⟨_, rfl, hx⟩
  | access _ haccess _ => simp [IsAccess, hi] at haccess
  | symbol _ _ hd => rcases decodeSym_cases hd with ⟨-, e⟩ | ⟨-, e⟩ | ⟨-, e⟩ <;> cases hi.symm.trans e
  | window =>
    unfold decodeWindow at hi
    split at hi <;> cases hi
  | @packet p =>
    rcases classify_cases s.ctx p with e | e | e | e | e | e <;> cases hi.symm.trans e
  | absorb =>
    cases hmode : s.sel.mode <;> rw [hmode] at hi <;> cases hi
  | drain => cases hi
  | final => cases hi
  | answer =>
    unfold decodeRsp at hi
    split at hi <;> cases hi

theorem access_stream {i : Instr} {s t : State} (hi : IsAccess i) (hp : s.phase = .idle) (he : exec i s = .next t) :
    t.stream = s.stream := by
  rcases exec_access_cases hi he with rfl | ⟨-, c, rfl⟩ | ⟨-, -, rfl⟩ | ⟨-, -, rfl⟩ | ⟨x, hx, rfl⟩
  · rfl
  · rfl
  · rfl
  · exact State.stream_congr rfl rfl (by rw [hp]; rfl)
  · exact State.moved_stream (by simpa using hx)

/-! ## Source symbols and the window -/

theorem symbol_stream {s t : State} {i : Instr} {e : Env} {w : BitVec 10} (hp : s.phase = .idle) (hr : s.running = true)
    (hd : decodeSym w = .ok i) (he : exec i (s.moved e [.source w]) = .next t) : t.stream = s.stream := by
  have hr' : (s.moved e [.source w]).running = true := hr
  have hdelivered : (s.moved e [.source w]).delivered = s.delivered := by
    rw [State.delivered_append (s := s) rfl (by simp)]
    exact List.append_nil _
  rcases decodeSym_cases hd with ⟨-, rfl⟩ | ⟨-, rfl⟩ | ⟨-, rfl⟩
  · obtain ⟨-, rfl⟩ := execSrcByte_next hr' he
    refine State.stream_congr hdelivered rfl ?_
    rw [hp, byteTaken]
    dsimp only
    split <;> rfl
  · cases (execSrcEos_running hr').symm.trans he
    exact State.stream_congr hdelivered rfl (by rw [hp]; rfl)
  · cases (execSrcErr_running hr').symm.trans he
    exact State.stream_congr hdelivered rfl (by rw [hp]; rfl)

theorem enterResync_delivered (s : State) : s.enterResync.delivered = s.delivered := by
  unfold State.enterResync
  split
  · rfl
  · exact State.event_delivered _ _ _

theorem window_stream {s t : State} (hp : s.phase = .window)
    (he : exec (decodeWindow (windowHeader s.sync.win)) s = .next t) : t.stream = s.stream := by
  unfold decodeWindow at he
  split at he
  case isTrue =>
    cases he
    exact State.stream_congr rfl rfl (by rw [hp]; rfl)
  case isFalse =>
    cases he
    refine State.stream_congr ?_ (by simp [State.buffered]) (by rw [hp]; rfl)
    have hslid : (s.enterResync.slideWindow.goto .idle).delivered = s.enterResync.delivered := by
      simp [State.delivered]
    rw [hslid, enterResync_delivered]

/-! ## Packets -/

theorem gateAndCheck_stream (p : Packet) (s : State) : (s.gateAndCheck p).stream = s.stream := by
  have hopened : (s.openGate p).delivered = s.delivered := by simp [State.delivered]
  refine State.stream_congr ?_ (by simp [State.buffered]) (by simp)
  rw [State.gateAndCheck]
  rcases continuity_cases p (s.openGate p) with ⟨-, e⟩ | ⟨-, e⟩
  · rw [e]
    exact (State.event_delivered _ _ _).trans hopened
  · rw [e]
    exact hopened

/-- Halting with nothing in hand keeps the stream (R216). -/
theorem halt_stream {s : State} (hh : s.phase.inHand = []) (cause : HaltCause) : (s.halt cause).stream = s.stream :=
  State.stream_congr rfl rfl (by rw [hh]; rfl)

/-- A span handed over joins the stream at its end (R195). -/
theorem handOver_stream {p : Packet} {start : Int} {s t : State} (hh : s.phase.inHand = [])
    (h : handOver p start s = .next t) : s.stream <+: t.stream := by
  rcases handOver_cases p start s with ⟨-, -, e⟩ | ⟨-, e⟩
  · cases e.symm.trans h
    rw [State.stream_of_inHand_nil hh]
    exact List.prefix_append _ _
  · cases e.symm.trans h
    exact (halt_stream hh .bounds).symm ▸ List.prefix_rfl

theorem packet_stream {s t : State} {p : Packet} (hp : s.phase = .packet p) (he : exec (classify s.ctx p) s = .next t) :
    s.stream <+: t.stream := by
  have hchecked := gateAndCheck_stream p s
  have hh : s.phase.inHand = [] := by rw [hp]; rfl
  have hh' : (s.gateAndCheck p).phase.inHand = [] := by simpa using hh
  have hover : (s.goto .idle).stream = s.stream := State.stream_congr rfl rfl hh.symm
  rcases classify_cases s.ctx p with e | e | e | e | e | e
  all_goals rw [e] at he
  · cases he
    exact hover.symm ▸ List.prefix_rfl
  · cases he
    exact hover.symm ▸ List.prefix_rfl
  · have hreported : ((s.gateAndCheck p).event .tei 0).stream = s.stream :=
      (State.stream_congr (State.event_delivered _ _ _) rfl rfl).trans hchecked
    exact hreported ▸ handOver_stream (start := teiStart) hh' he
  · exact hchecked ▸ handOver_stream hh' he
  · exact hchecked ▸ handOver_stream hh' he
  · cases he
    exact ((halt_stream hh' .bounds).trans hchecked).symm ▸ List.prefix_rfl

/-! ## The framer -/

section
variable {s t : State}

theorem absorb_stream {span : List Byte} (hwf : s.framer.buf.wf = true) (hp : s.phase = .absorb span)
    (he : exec (decodeFramer s.sel.mode (.absorb span)) s = .next t) : t.stream = s.stream := by
  have hs : s.stream = s.delivered ++ (s.buffered ++ span) := by
    rw [State.stream, State.inHand_eq, hp, List.append_assoc]
    rfl
  cases hmode : s.sel.mode with
  | na =>
    rw [hmode] at he
    obtain ⟨-, rfl⟩ := execFrmNaAppend_next he
    rw [refilled_stream, Memory.readN_writeN_append hwf, hs]
    rfl
  | ni =>
    rw [hmode] at he
    rcases execFrmNiWrite_next he with ⟨rfl, rfl⟩ | ⟨-, rfl⟩
    · exact State.stream_congr rfl rfl (by rw [hp]; rfl)
    · exact State.stream_congr rfl rfl (by rw [hp]; rfl)

theorem drain_stream (hp : s.phase = .drain) (he : exec .frmNaFlush s = .next t) : t.stream = s.stream := by
  cases (execFrmNaFlush_eq s).symm.trans he
  exact State.stream_congr rfl rfl (by rw [hp]; rfl)

theorem final_stream {cause : CleanCause} (hp : s.phase = .final cause) (he : exec (.frmFinal cause) s = .next t) :
    t.stream = s.stream := by
  rcases execFrmFinal_next he with ⟨-, -, rfl⟩ | rfl
  · exact State.stream_congr rfl rfl (by rw [hp]; rfl)
  · exact halt_stream (by rw [hp]; rfl) _

/-! ## The sink -/

theorem written_delivered (bytes : List Byte) (s : State) : (written bytes s).delivered = s.delivered ++ bytes := by
  rw [State.delivered_append (s := s) rfl (by simp)]
  simp [deliveredOf]

/-- The bytes of a transaction answered OK go from the buffer, or from the hand, to the output (R213, R217, R219). -/
theorem ok_stream {caller : Caller} {bytes : List Byte} (h : Inv s) (hp : s.phase = .sink caller bytes)
    (he : exec .snkOk s = .next t) : t.stream = s.stream := by
  rw [execSnkOk_sink hp] at he
  have hdelivered := written_delivered bytes s
  cases caller with
  | naFlush =>
    obtain rfl := h.naFlush_bytes hp
    cases shiftChunk_next he
    have hs : s.stream = s.delivered ++ s.framer.buf.readN 0 s.framer.bufLen :=
      State.stream_of_inHand_nil (by rw [hp]; rfl)
    rw [refilled_stream, hdelivered, List.append_assoc, hs]
    exact congrArg _ (Memory.readN_shift h.bufWf (h.at_naFlush hp).2)
  | niWrite =>
    cases he
    have hempty : s.buffered = [] := by rw [State.buffered, h.niEmpty (h.at_niWrite hp), Memory.readN_zero]
    have hs : s.stream = s.delivered ++ bytes := by
      rw [State.stream, State.inHand_eq, hp, hempty, List.append_nil]
      rfl
    have ht : ((written bytes s).goto .idle).stream = (s.delivered ++ bytes) ++ s.buffered :=
      hdelivered ▸ State.stream_of_inHand_nil rfl
    rw [ht, hs, hempty, List.append_nil]
  | final cause =>
    obtain ⟨-, -, rfl⟩ := h.sinkFinal_bytes hp
    cases he
    have hs : s.stream = s.delivered ++ s.buffered := State.stream_of_inHand_nil (by rw [hp]; rfl)
    have ht : ((written s.buffered s).finalDone cause).stream = (s.delivered ++ s.buffered) ++ [] :=
      hdelivered ▸ State.stream_of_inHand_nil rfl
    rw [ht, hs, List.append_nil]

/-- A failed write takes off what was in hand; what is buffered stays (R216, R217). -/
theorem fail_stream {caller : Caller} {bytes : List Byte} (hp : s.phase = .sink caller bytes)
    (he : exec .snkFail s = .next t) : t.stream ++ s.phase.inHand = s.stream := by
  cases (execSnkFail_sink hp).symm.trans he
  have hdelivered : ((s.log (.sink bytes .fail)).halt .writeFail).delivered = s.delivered := by
    rw [State.delivered_append (s := s) rfl (by simp)]
    exact List.append_nil _
  have ht : ((s.log (.sink bytes .fail)).halt .writeFail).stream = s.delivered ++ s.buffered :=
    hdelivered ▸ State.stream_of_inHand_nil rfl
  rw [ht]
  rfl

theorem answer_stream {caller : Caller} {bytes : List Byte} {v : BitVec 1} (h : Inv s) (hp : s.phase = .sink caller bytes)
    (hni : caller = .niWrite → decodeRsp v ≠ .snkFail) (he : exec (decodeRsp v) s = .next t) : t.stream = s.stream := by
  by_cases hv : v = 0
  · exact ok_stream h hp (by rwa [decodeRsp, if_pos hv] at he)
  · rw [decodeRsp, if_neg hv] at he hni
    have hfail := fail_stream hp he
    have hh : s.phase.inHand = [] := by
      rw [hp]
      cases caller with
      | niWrite => exact absurd rfl (hni rfl)
      | naFlush => rfl
      | final cause => rfl
    rwa [hh, List.append_nil] at hfail

end

/-! ## A step -/

/-- Under an outstanding transaction the core runs RESET or the sink's answer. -/
theorem Runs.at_sink {s : State} {i : Instr} {e : Env} {u : List Transfer} {caller : Caller} {bytes : List Byte}
    (hr : Runs s i e u) (hp : s.phase = .sink caller bytes) : i = .hostReset ∨ u = [] := by
  cases hr with
  | reset => exact .inl rfl
  | access hidle => cases hidle.symm.trans hp
  | symbol hidle => cases hidle.symm.trans hp
  | _ => exact .inr rfl

/-- Every step but RESET, a packet and a failed ETI-NI write keeps the stream. -/
theorem Runs.keeps_stream {s t : State} {i : Instr} {e : Env} {u : List Transfer} (hr : Runs s i e u) (h : Inv s)
    (hreset : i ≠ .hostReset) (hpacket : ∀ p, s.phase ≠ .packet p)
    (hfail : ∀ bytes, s.phase = .sink .niWrite bytes → i ≠ .snkFail) (he : exec i (s.moved e u) = .next t) :
    t.stream = s.stream := by
  have hm := h.moved e u
  have hquiet : u = [] → (s.moved e u).stream = s.stream := fun hu => State.moved_stream (by simp [hu])
  cases hr with
  | reset => exact absurd rfl hreset
  | access hp hi hu => exact (access_stream (s := s.moved _ _) hi hp he).trans (State.moved_stream hu)
  | symbol hp hrun hd => exact symbol_stream hp hrun hd he
  | window hp => exact (window_stream (s := s.moved _ _) hp he).trans (hquiet rfl)
  | packet hp => exact absurd hp (hpacket _)
  | absorb hp => exact (absorb_stream hm.bufWf hp he).trans (hquiet rfl)
  | drain hp => exact (drain_stream (s := s.moved _ _) hp he).trans (hquiet rfl)
  | final hp => exact (final_stream (s := s.moved _ _) hp he).trans (hquiet rfl)
  | answer hp => exact (answer_stream hm hp (fun hc => hfail _ (hc ▸ hp)) he).trans (hquiet rfl)

/-- The operation `nextInstr` names is the one the step runs. -/
theorem step_of_nextInstr {s : State} {i : Instr} (h : s.nextInstr = some i) :
    ∃ e u, Runs s i e u ∧ step s = exec i (s.moved e u) := by
  unfold State.nextInstr at h
  split at h
  · cases h
  · rename_i w s1 hf
    split at h
    · rename_i hd
      cases h
      obtain ⟨e, u, rfl, hr⟩ := runs_of_fetch hf hd
      exact ⟨e, u, hr, step_of_decode hf hd⟩
    · cases h

end Sys2Proof.Machine

open Sys2Proof Sys2Proof.Machine

/-- Settles O50, operation by operation: bytes go from the hand to the buffer, and from either to the output. -/
theorem stepConservesTheExtractedStream : Obligations.StepConservesTheExtractedStream := by
  intro s t hinv hstep
  refine ⟨fun hnext => ?reset, fun p hp => ?packet, fun bytes hp hnext => ?failed, fun hreset hpacket hfail => ?kept⟩
  case reset =>
    obtain ⟨e, u, hr, hexec⟩ := step_of_nextInstr hnext
    obtain ⟨x, rfl, hx⟩ := hr.transfer_of_reset rfl
    cases hexec.symm.trans hstep
    exact resetCore_stream hx
  case packet =>
    obtain ⟨-, hv, -⟩ := hinv.at_packet hp
    exact packet_stream hp ((step_of_packet hp hv).symm.trans hstep)
  case failed =>
    obtain ⟨e, u, hr, hexec⟩ := step_of_nextInstr hnext
    obtain rfl : u = [] := (hr.at_sink hp).resolve_left (by simp)
    have hmoved : (s.moved e []).stream = s.stream := State.moved_stream (by simp)
    have htaken := fail_stream (s := s.moved e []) hp (hexec.symm.trans hstep)
    rwa [State.moved_phase, hp, hmoved] at htaken
  case kept =>
    rcases step_cases hstep with ⟨e, u, rfl, -, -, hu⟩ | ⟨i, e, u, hnext, hr, he⟩
    · exact State.moved_stream hu
    · refine hr.keeps_stream hinv (fun hi => hreset (hi ▸ hnext)) hpacket (fun bytes hp hi => ?_) he
      exact hfail bytes hp (hi ▸ hnext)

end

section
/-! PROOFS. What the core does while its environment offers nothing it takes (R83, R264), and the RESET that ends a stalled
run (R121, R289; log entry 6). -/

namespace Sys2Proof.Machine

/-! ## A stalled core -/

/-- The two places at which the core is stalled (R83, R289). -/
theorem State.stalled_iff (s : State) :
    s.stalled ↔ (s.phase = .idle ∧ s.running = true ∧ s.env.source = []) ∨
      ((∃ caller bytes, s.phase = .sink caller bytes) ∧ s.env.answers = []) := by
  unfold State.stalled
  cases s.phase <;> simp

/-- While source and sink offer nothing more, a stalled core stays stalled, whatever the host does meanwhile. -/
theorem State.stalled_moved {s : State} {e : Env} {u : List Transfer} (h : s.stalled) (hsource : e.source = s.env.source)
    (hanswers : e.answers = s.env.answers) : (s.moved e u).stalled := by
  rw [State.stalled_iff] at h ⊢
  rw [State.moved_env, hsource, hanswers]
  exact h

theorem done_of_stalled {s : State} (h : Inv s) (hs : s.stalled) : s.done = false := by
  have hnot : s.framer.fsm ≠ .halted := by
    rcases s.stalled_iff.mp hs with ⟨-, hr, -⟩ | ⟨⟨caller, bytes, hp⟩, -⟩
    · exact (State.running_ne hr).2
    · rw [(h.at_sink hp).1]
      decide
  simpa [State.done] using hnot

/-- A sink without an answer leaves the step to the host (R289). -/
theorem fetch_of_no_answer {s : State} {caller : Caller} {bytes : List Byte} (hp : s.phase = .sink caller bytes)
    (ha : s.env.answers = []) : fetch s = fetchStalled s := by
  simp only [fetch, hp, fetchAnswer, ha]

/-- What a stalled core can take: any host input while it waits for the source, a RESET while it waits for the sink. -/
theorem fetch_word_of_stalled {s s1 : State} {w : PortWord} (hs : s.stalled) (hf : fetch s = .word w s1) :
    (s.running = true ∧ ∃ x xs, w = (hostWord x).1 ∧ s1 = afterHost s x xs) ∨ ∀ c, decode c w = .ok .hostReset := by
  rcases s.stalled_iff.mp hs with ⟨hidle, hr, hsource⟩ | ⟨⟨caller, bytes, hp⟩, ha⟩
  · rcases fetch_word hf with ⟨-, x, xs, -, hw, h1⟩ | ⟨-, -, v, vs, hv, -⟩ | ⟨hp, -⟩ | ⟨p, hp, -⟩ | ⟨span, hp, -⟩ | ⟨hp, -⟩ |
      ⟨cause, hp, -⟩ | ⟨caller, bytes, hp, -⟩ | ⟨caller, bytes, hp, -⟩
    · exact .inl ⟨hr, x, xs, hw, h1⟩
    · cases hsource.symm.trans hv
    all_goals cases hidle.symm.trans hp
  · rw [fetch_of_no_answer hp ha] at hf
    rcases fetchStalled_cases s with ⟨x, xs, -, hx, e⟩ | ⟨-, e⟩
    · cases e.symm.trans hf
      exact .inr fun c => (hostWord_reset hx c).1
    · cases e.symm.trans hf

/-- A step of a stalled core other than RESET takes nothing from source and sink, and changes the inputs and the record
alone. -/
theorem step_of_stalled {s t : State} (hs : s.stalled) (hstep : step s = .next t)
    (hno : s.nextInstr ≠ some .hostReset) :
    ∃ e u, t = s.moved e u ∧ e.source = s.env.source ∧ e.answers = s.env.answers := by
  rcases step_next hstep with hw | ⟨w, s1, i, hf, hd, he⟩ | ⟨w, hf, hd⟩
  · rcases fetch_wait hw with rfl | ⟨-, rfl⟩
    · exact ⟨_, _, t.eq_moved, rfl, rfl⟩
    · exact ⟨_, _, s.passTurn_eq_moved, rfl, rfl⟩
  · have hi : i ≠ .hostReset := fun hi => hno (hi ▸ nextInstr_of_decode hf hd)
    rcases fetch_word_of_stalled hs hf with ⟨hr, x, xs, rfl, rfl⟩ | hreset
    · rcases decode_host hd with ⟨hreset, -⟩ | ⟨haccess, -⟩
      · exact absurd hreset hi
      · obtain ⟨v, rfl, -⟩ := exec_access_outside_idle haccess (s := afterHost s x xs) (State.running_ne hr).1 he
        exact ⟨_, _, State.moved_moved _ _ _ v s, rfl, rfl⟩
    · exact absurd (Except.ok.inj (hd.symm.trans (hreset s1.ctx))) hi
  · obtain ⟨e, u, rfl, hsource, hanswers, -⟩ := moved_of_noEffect hf hd
    exact ⟨e, u, rfl, hsource, hanswers⟩

/-- A stalled core is never at a refusal: the source offers no symbol. -/
theorem step_stalled_progress {s : State} (h : Inv s) (hs : s.stalled) : ∃ t, step s = .next t := by
  refine (step_progress h).resolve_right ?_
  rintro ⟨-, -, hidle, w, ws, hsource, -⟩
  rcases s.stalled_iff.mp hs with ⟨-, -, hnone⟩ | ⟨⟨caller, bytes, hp⟩, -⟩
  · cases hnone.symm.trans hsource
  · cases hidle.symm.trans hp

/-! ## Nothing to take -/

theorem step_of_wait {s t : State} (hf : fetch s = .wait t) : step s = .next t := by
  simp only [step, hf]

theorem State.passTurn_of_no_turns {s : State} (h : s.env.turns = []) : s.passTurn = s := by
  have henv : ({ s.env with turns := s.env.turns.tail } : Env) = s.env := by rw [h, List.tail_nil, ← h]
  rw [State.passTurn_eq_moved, henv, ← s.eq_moved]

/-- The source's turn passes where the core does not read or the source offers nothing (R64, R83). -/
theorem fetchSource_wait {s : State} (h : s.env.source = [] ∨ ¬ s.running = true) : fetchSource s = .wait s := by
  unfold fetchSource
  by_cases hr : s.running = true
  · rw [if_pos hr, h.resolve_right (not_not_intro hr)]
  · rw [if_neg hr]

/-! ## RESET -/

/-- The reset values are those of `State.reset`, whatever the parameters, the inputs and the record (R44, R121). -/
theorem resetCore_hasResetValues (s : State) : s.resetCore.HasResetValues :=
  { resetHasTheSpecValues.1 with }

/-- A RESET at the head of the host's inputs is taken at the host's turn, and under a sink that answers no more (R289). -/
theorem fetch_reset {s : State} {x : HostInput} {xs : List HostInput} (hx : s.env.host = x :: xs) (hr : x.isReset = true)
    (hturn : (s.phase = .idle ∧ s.env.mover = .host) ∨
      (s.env.answers = [] ∧ ∃ caller bytes, s.phase = .sink caller bytes)) :
    ∃ e, e.host = xs ∧ fetch s = .word (hostWord x).1 (s.moved e (hostWord x).2) := by
  rcases hturn with ⟨hp, hmover⟩ | ⟨ha, caller, bytes, hp⟩
  · refine ⟨{ s.env with host := xs, turns := s.env.turns.tail }, rfl, ?_⟩
    simp only [fetch, hp, fetchInput, hmover, fetchHost, State.passTurn_env, hx]
    rfl
  · refine ⟨{ s.env with host := xs }, rfl, ?_⟩
    rw [fetch_of_no_answer hp ha, fetchStalled, hx]
    simp only [hr, if_true, fetchHost, hx]
    rfl

end Sys2Proof.Machine

open Sys2Proof Sys2Proof.Machine

/-- Settles O58: a wait gives back the state, a stalled core takes the host's accesses alone, and a RESET ends the run. -/
theorem stalledCoreWaits : Obligations.StalledCoreWaits := by
  intro s
  refine ⟨fun hturns hp hhost hnone => ?source, fun caller bytes hp ha hno => ?sink, fun hinv hs => ?stalled,
    fun x xs hx hr hturn => ?reset⟩
  case source =>
    have hmover : s.env.mover = .source := by simp only [Env.mover, hturns, hhost, if_true]
    have hwait : fetchSource s = .wait s := fetchSource_wait (hnone.imp_right State.not_running)
    refine step_of_wait ?_
    simp only [fetch, hp, fetchInput, hmover, State.passTurn_of_no_turns hturns, hwait]
  case sink =>
    rcases fetchStalled_cases s with ⟨x, xs, hx, hr, -⟩ | ⟨-, e⟩
    · cases hr.symm.trans (hno x xs hx)
    · exact step_of_wait ((fetch_of_no_answer hp ha).trans e)
  case stalled =>
    have hdone := done_of_stalled hinv hs
    obtain ⟨t, hstep⟩ := step_stalled_progress hinv hs
    refine ⟨hdone, t, hstep, fun hno => ?_⟩
    obtain ⟨e, u, rfl, hsource, hanswers⟩ := step_of_stalled hs hstep hno
    exact ⟨State.stalled_moved hs hsource hanswers, hdone, rfl, rfl⟩
  case reset =>
    obtain ⟨e, hhost, hf⟩ := fetch_reset hx hr hturn
    obtain ⟨hd, y, hy, hyr⟩ := hostWord_reset hr (s.moved e (hostWord x).2).ctx
    refine ⟨nextInstr_of_decode hf hd, _, step_of_decode hf hd, resetCore_hasResetValues _, rfl, hhost, ?_⟩
    rw [hy]
    exact resetCore_stream hyr

end

section
/-! PROOFS. The statements of encoding: the header word and its fields (R91), the six classes of a valid packet (R111), and
the decoder against the encoder and the operation map (R110, R113). -/

namespace Sys2Proof

/-! ## The header word as a number -/

/-- A byte below a word is its lowest digit in base 256 (R71). -/
theorem toNat_append_byte {n : Nat} (x : BitVec n) (b : Byte) : (x ++ b).toNat = x.toNat * 2 ^ 8 + b.toNat := by
  rw [BitVec.toNat_append, ← Nat.shiftLeft_add_eq_or_of_lt b.isLt, Nat.shiftLeft_eq]

/-- The header word is big-endian in its four bytes (R71, R91). -/
theorem Packet.toNat_header (p : Packet) :
    p.header.toNat =
      (p.byte 0).toNat * 2 ^ 24 + (p.byte 1).toNat * 2 ^ 16 + (p.byte 2).toNat * 2 ^ 8 + (p.byte 3).toNat := by
  simp only [Packet.header, toNat_append_byte]
  ring

/-- A bit of a byte is a binary digit of its number. -/
theorem getLsbD_iff_div_mod (b : Byte) (i : Nat) : b.getLsbD i = true ↔ b.toNat / 2 ^ i % 2 = 1 := by
  rw [← BitVec.testBit_toNat, Nat.testBit_eq_decide_div_mod_eq, decide_eq_true_eq]

/-- A field of a byte is cut out of its number by a division and a remainder. -/
theorem toNat_field (b : Byte) (lo n : Nat) : (b.extractLsb' lo n).toNat = b.toNat / 2 ^ lo % 2 ^ n := by
  rw [BitVec.extractLsb'_toNat, Nat.shiftRight_eq_div_pow]

/-! ## The six classes of a packet -/

/-- The decoder's skip test is the condition of PKT.SKIP's row (R110, R185). -/
theorem skipped_iff (c : ClassCtx) (p : Packet) :
    (c.gateClosed && !p.qualifies) = true ↔
      c.selMode = .ni ∧ c.fsm = .awaitingSync ∧ ¬ (p.unitStart = true ∧ p.transportError = false) := by
  rw [Bool.and_eq_true, ClassCtx.gateClosed, Packet.qualifies, Bool.and_eq_true, beq_iff_eq, beq_iff_eq,
    Bool.not_eq_true', Bool.and_eq_false_iff, Bool.not_eq_false', not_and_or, Bool.not_eq_true, Bool.not_eq_false,
    and_assoc]

/-- A packet with a transport error never qualifies: only an open gate lets it past the skip test (R183). -/
theorem not_skipped_of_transportError (c : ClassCtx) {p : Packet} (htei : p.transportError = true) :
    ¬ (c.gateClosed && !p.qualifies) = true ↔ ¬ (c.selMode = .ni ∧ c.fsm = .awaitingSync) := by
  rw [skipped_iff]
  simp [htei]

/-- Without one it passes the skip test through an open gate or by its unit start (R183). -/
theorem not_skipped_of_no_transportError (c : ClassCtx) {p : Packet} (htei : p.transportError = false) :
    ¬ (c.gateClosed && !p.qualifies) = true ↔ (c.selMode = .ni → c.fsm = .awaitingSync → p.unitStart = true) := by
  rw [skipped_iff]
  simp [htei]

theorem packetOf_classify (c : ClassCtx) (p : Packet) : Machine.packetOf (classify c p) = some p := by
  rcases classify_cases c p with e | e | e | e | e | e <;> rw [e] <;> rfl

/-- The class of a packet is one whose row of the operation map selects it (R110, R111). -/
theorem classify_selectedBy (c : ClassCtx) (p : Packet) : (classify c p).selectedBy c := by
  unfold classify
  split_ifs with hdrop hskip htei hneg hpos
  · exact Bool.eq_false_iff.mp hdrop
  · exact ⟨eq_true_of_ne_false hdrop, (skipped_iff c p).mp hskip⟩
  · exact ⟨eq_true_of_ne_false hdrop, (not_skipped_of_transportError c htei).mp hskip, htei⟩
  all_goals
    have htei' := eq_false_of_ne_true htei
    have hopen := (not_skipped_of_no_transportError c htei').mp hskip
  · exact ⟨eq_true_of_ne_false hdrop, hopen, htei', hneg⟩
  · exact ⟨eq_true_of_ne_false hdrop, hopen, htei', not_lt.mp hneg, hpos⟩
  · exact ⟨eq_true_of_ne_false hdrop, hopen, htei', not_lt.mp hneg, not_le.mp hpos⟩

/-- Past selection, gate and transport error the class turns on the payload start alone (R111). -/
theorem classify_of_open {c : ClassCtx} {p : Packet} (hsel : c.selects p = true)
    (hopen : c.selMode = .ni → c.fsm = .awaitingSync → p.unitStart = true) (htei : p.transportError = false) :
    classify c p =
      if c.selOffset.toInt < 0 then .pktFwdNeg p else if c.posStart p ≤ tsSize then .pktFwdPos p else .pktBounds p := by
  have hgate := (not_skipped_of_no_transportError c htei).mpr hopen
  rw [classify, if_neg (by rw [hsel]; decide), if_neg hgate, if_neg (by rw [htei]; decide)]

/-- A packet operation whose row selects the packet is the packet's class: the rows exclude each other (R111). -/
theorem classify_eq_of_selectedBy {c : ClassCtx} {p : Packet} {i : Instr} (hi : Machine.packetOf i = some p)
    (hs : i.selectedBy c) : classify c p = i := by
  cases i
  case pktDrop =>
    cases hi
    exact if_pos (eq_false_of_ne_true hs)
  case pktSkip =>
    cases hi
    obtain ⟨hsel, hskip⟩ := hs
    rw [classify, if_neg (by rw [hsel]; decide), if_pos ((skipped_iff c p).mpr hskip)]
  case pktFwdTei =>
    cases hi
    obtain ⟨hsel, hopen, htei⟩ := hs
    rw [classify, if_neg (by rw [hsel]; decide), if_neg ((not_skipped_of_transportError c htei).mpr hopen), if_pos htei]
  case pktFwdPos =>
    cases hi
    obtain ⟨hsel, hopen, htei, hnonneg, hstart⟩ := hs
    rw [classify_of_open hsel hopen htei, if_neg (not_lt.mpr hnonneg)]
    exact if_pos hstart
  case pktFwdNeg =>
    cases hi
    obtain ⟨hsel, hopen, htei, hneg⟩ := hs
    rw [classify_of_open hsel hopen htei, if_pos hneg]
  case pktBounds =>
    cases hi
    obtain ⟨hsel, hopen, htei, hnonneg, hstart⟩ := hs
    rw [classify_of_open hsel hopen htei, if_neg (not_lt.mpr hnonneg)]
    exact if_neg (not_le.mpr hstart)
  all_goals cases hi

/-! ## Well-formedness of what is decoded and encoded -/

/-- Any class of a valid packet is a well-formed operation (R110, R140). -/
theorem classify_wellFormed (c : ClassCtx) {p : Packet} (hv : p.valid = true) : (classify c p).wellFormed = true := by
  unfold classify
  split_ifs with hdrop hskip htei hneg hpos
  · exact hv
  · obtain ⟨-, hqualifies⟩ := Bool.and_eq_true_iff.mp hskip
    simp only [Instr.wellFormed, hv, hqualifies, Bool.and_self]
  all_goals simp only [Instr.wellFormed, hv, htei, Bool.not_false, Bool.and_self]

theorem encode_of_packetOf {i : Instr} {p : Packet} (hi : Machine.packetOf i = some p) : encode i = .tsp p := by
  cases i <;> cases hi <;> rfl

theorem valid_of_wellFormed {i : Instr} {p : Packet} (hi : Machine.packetOf i = some p) (hw : i.wellFormed = true) :
    p.valid = true := by
  cases i <;> cases hi
  case pktDrop => exact hw
  all_goals exact (Bool.and_eq_true_iff.mp hw).1

theorem decode_tsp (c : ClassCtx) {p : Packet} (hv : p.valid = true) : decode c (.tsp p) = .ok (classify c p) := if_pos hv

/-- A BYTE symbol of the encoder gives its byte back (R99). -/
theorem decodeSym_byte (b : Byte) : decodeSym (0#2 ++ b) = .ok (.srcByte b) := by
  have hkind : (0#2 ++ b).extractLsb' 8 2 = 0 := BitVec.extractLsb'_append_eq_left
  have hdata : (0#2 ++ b).extractLsb' 0 8 = b := BitVec.extractLsb'_append_eq_right
  rw [decodeSym, if_pos hkind, hdata]

/-- The operation of a framer call is the one its mode selects (R211). -/
theorem decodeFramer_selectedBy (c : ClassCtx) (call : FramerCall) : (decodeFramer c.selMode call).selectedBy c := by
  cases call with
  | absorb span =>
    cases hmode : c.selMode with
    | na => exact hmode
    | ni => exact hmode
  | flush => trivial
  | terminate cause => trivial

/-- RESET and the other accesses have neither a selecting condition nor an operand check (R110). -/
theorem decode_reg_selected {c : ClassCtx} {we : Bool} {addr : BitVec 8} {wdata : Word} {i : Instr}
    (h : decode c (.reg we addr wdata) = .ok i) : i.selectedBy c ∧ i.wellFormed = true := by
  have hhost : decode c (Machine.hostWord (.access we addr wdata)).1 = .ok i := by cases we <;> exact h
  rcases Machine.decode_host hhost with ⟨rfl, -⟩ | ⟨rfl | ⟨_, rfl⟩ | ⟨_, rfl⟩ | ⟨_, rfl⟩ | ⟨_, rfl⟩, -⟩ <;>
    exact ⟨trivial, rfl⟩

end Sys2Proof

open Sys2Proof Sys2Proof.Machine

/-- Settles O42: a packet operation is the class of its packet; every other word carries its operation. -/
theorem decodeOfEncodeIsTheOperation : Obligations.DecodeOfEncodeIsTheOperation := by
  intro c i hw hs
  cases hi : packetOf i with
  | some p => rw [encode_of_packetOf hi, decode_tsp c (valid_of_wellFormed hi hw), classify_eq_of_selectedBy hi hs]
  | none =>
    cases i
    case srcByte b => exact decodeSym_byte b
    case winValid h => exact congrArg Except.ok (if_pos hw)
    case winInvalid h => exact congrArg Except.ok (if_neg (by simpa [Instr.wellFormed] using hw))
    case frmNaAppend span => simp only [encode, decode, decodeFramer, show c.selMode = .na from hs]
    case frmNiWrite span => simp only [encode, decode, decodeFramer, show c.selMode = .ni from hs]
    all_goals cases hi <;> rfl

/-- Settles O21, in the number of the header word. -/
theorem headerFieldsAreSlicesOfTheHeaderWord : Obligations.HeaderFieldsAreSlicesOfTheHeaderWord := by
  intro p
  have hpid : p.pid.toNat = (p.byte 1).toNat / 2 ^ 0 % 2 ^ 5 * 2 ^ 8 + (p.byte 2).toNat := by
    rw [Packet.pid, toNat_append_byte, toNat_field]
  have hsync : p.syncOk = true ↔ (p.byte 0).toNat = 0x47 := by
    rw [Packet.syncOk, beq_iff_eq, ← BitVec.toNat_inj]
    rfl
  rw [hsync, hpid, p.toNat_header, Packet.transportError, Packet.unitStart, Packet.afc, Packet.continuityCounter,
    getLsbD_iff_div_mod, getLsbD_iff_div_mod, toNat_field, toNat_field]
  have h1 := (p.byte 1).isLt
  have h2 := (p.byte 2).isLt
  have h3 := (p.byte 3).isLt
  refine ⟨?_, ?_, ?_, ?_, ?_, ?_⟩ <;> omega

/-- Settles O24: the class the decoder finds is selected, and the rows exclude each other. -/
theorem exactlyOneClassApplies : Obligations.ExactlyOneClassApplies := fun c p _ =>
  ⟨classify c p, packetOf_classify c p, classify_selectedBy c p, fun _ hj hs => (classify_eq_of_selectedBy hj hs).symm⟩

/-- Settles O43, format by format of the word. -/
theorem decodedOperationIsSelected : Obligations.DecodedOperationIsSelected := by
  intro c w i h
  cases w with
  | rst =>
    cases h
    exact ⟨trivial, fun _ => rfl⟩
  | reg we addr wdata =>
    obtain ⟨hs, hw⟩ := decode_reg_selected h
    exact ⟨hs, fun _ => hw⟩
  | sym w => rcases decodeSym_cases h with ⟨-, rfl⟩ | ⟨-, rfl⟩ | ⟨-, rfl⟩ <;> exact ⟨trivial, fun _ => rfl⟩
  | tsh hdr =>
    cases h
    unfold decodeWindow
    split
    case isTrue hsync => exact ⟨trivial, fun _ => hsync⟩
    case isFalse hsync => exact ⟨trivial, fun _ => by simpa [Instr.wellFormed] using hsync⟩
  | tsp p =>
    simp only [decode] at h
    split_ifs at h with hv
    cases h
    exact ⟨classify_selectedBy c p, fun _ => classify_wellFormed c hv⟩
  | frm call =>
    cases h
    exact ⟨decodeFramer_selectedBy c call, fun hno => absurd rfl (hno call)⟩
  | rsp w =>
    cases h
    unfold decodeRsp
    split_ifs <;> exact ⟨trivial, fun _ => rfl⟩

/-- Settles O44: every word is computed through its format. -/
theorem tableWordsDecode : Obligations.TableWordsDecode :=
  ⟨by decide, by decide, by decide, by decide, by decide, by decide, by decide, by decide⟩

end

section
/-! PROOFS. The host operations on the configuration: the fields a write stores (R33), the tests of START against the legality
predicate (R123, R130), START accepted and rejected (R124, R125), and RESET seen through the register port (R121). -/

namespace Sys2Proof.Machine

/-! ## The written words -/

theorem low16_eq_setWidth (w : Word) : low16 w = w.setWidth 16 :=
  (BitVec.setWidth_eq_extractLsb' (by decide)).symm

/-- Bit 0 of the written word is its lowest binary digit. -/
theorem ctrlMode_eq (w : Word) : ctrlMode w = if w.toNat % 2 = 1 then .ni else .na := by
  rw [ctrlMode, show w.getLsbD 0 = decide (w.toNat % 2 = 1) from Nat.testBit_zero w.toNat]
  simp only [decide_eq_true_eq]

theorem ctrlExplicit_eq (w : Word) : ctrlExplicit w = decide (w.toNat / 2 % 2 = 1) :=
  Nat.testBit_eq_decide_div_mod_eq

theorem writeCfg_idle {s : State} (hidle : s.framer.fsm = .idle) (c : CfgState) :
    writeCfg c s = .next { s with cfg := c } := if_pos hidle

/-! ## The tests of START (R123) -/

theorem errPid_iff (c : CfgState) : errPid c = true ↔ ¬ (0 ≤ c.pid.toInt ∧ c.pid.toInt ≤ 8191) := by
  rw [errPid, Bool.not_eq_true', ← Bool.not_eq_true, Bool.and_eq_true, decide_eq_true_eq, decide_eq_true_eq]

theorem errOfs_iff (c : CfgState) :
    errOfs c = true ↔ c.ofsExpl = true ∧ ¬ (-3 ≤ c.offset.toInt ∧ c.offset.toInt ≤ 183) := by
  rw [errOfs, Bool.and_eq_true, Bool.not_eq_true', ← Bool.not_eq_true, Bool.and_eq_true, decide_eq_true_eq,
    decide_eq_true_eq]

theorem errMis_iff (c : CfgState) : errMis c = true ↔ c.mode = .ni ∧ c.ofsExpl = true ∧ c.offset.toInt ≠ 4 := by
  rw [errMis, Bool.and_eq_true, Bool.and_eq_true, beq_iff_eq, bne_iff_ne, and_assoc]

/-- A configuration is legal exactly when no test of START fails (R123, R130). -/
theorem CfgState.legal_iff (c : CfgState) : c.legal ↔ (errPid c || errOfs c || errMis c) = false := by
  have hmode : c.mode = .na ↔ ¬ c.mode = .ni := by cases c.mode <;> decide
  rw [Bool.or_eq_false_iff, Bool.or_eq_false_iff]
  simp only [CfgState.legal, Bool.eq_false_iff, ne_eq, errPid_iff, errOfs_iff, errMis_iff, hmode]
  tauto

/-! ## START in IDLE -/

theorem exec_hostStart_legal {s : State} (hidle : s.framer.fsm = .idle) (hlegal : s.cfg.legal) :
    exec .hostStart s = .next (startAccepted s) := by
  have hpass := (CfgState.legal_iff s.cfg).mp hlegal
  simp only [exec, execHostStart, hidle, hpass, if_true, Bool.false_eq_true, if_false]

theorem exec_hostStart_illegal {s : State} (hidle : s.framer.fsm = .idle) (hillegal : ¬ s.cfg.legal) :
    exec .hostStart s = .next (startHalted s) := by
  have hfail : (errPid s.cfg || errOfs s.cfg || errMis s.cfg) = true :=
    Bool.not_eq_false _ ▸ mt (CfgState.legal_iff s.cfg).mpr hillegal
  simp only [exec, execHostStart, hidle, hfail, if_true]
  rfl

/-- A PID that passes its test fits the selector's thirteen bits (R124). -/
theorem latchSel_pid {c : CfgState} (hpid : 0 ≤ c.pid.toInt ∧ c.pid.toInt ≤ 8191) :
    ((latchSel c).pid.toNat : Int) = c.pid.toInt := by
  obtain ⟨hlo, hhi⟩ := hpid
  have hnat : c.pid.toInt = c.pid.toNat :=
    BitVec.toInt_eq_toNat_of_msb (BitVec.msb_eq_toInt.trans (decide_eq_false hlo.not_gt))
  rw [latchSel, BitVec.extractLsb'_toNat, Nat.shiftRight_zero, hnat]
  exact congrArg _ (Nat.mod_eq_of_lt (by omega))

theorem effOffset_eq (c : CfgState) :
    effOffset c = if c.ofsExpl = true then c.offset.toInt else if c.mode = .ni then 4 else 12 := by
  unfold effOffset
  cases c.mode <;> rfl

/-! ## RESET at the register port -/

/-- Every register is read off elements that RESET sets, so the port reads as after reset (R44, R121). -/
theorem readReg_resetCore (addr : BitVec 8) (s : State) : readReg addr s.resetCore = readReg addr State.reset := rfl

theorem State.resetCore_hasResetValues (s : State) : s.resetCore.HasResetValues :=
  { resetHasTheSpecValues.1 with }

end Sys2Proof.Machine

open Sys2Proof Sys2Proof.Machine

/-- Settles O5: the tests of START are the legality predicate, and a PID and an offset that pass fit the selector. -/
theorem startAcceptsALegalConfiguration : Obligations.StartAcceptsALegalConfiguration := by
  intro s hidle hlegal
  have hstart := exec_hostStart_legal hidle hlegal
  have hpass := (CfgState.legal_iff s.cfg).mp hlegal
  simp only [Bool.or_eq_false_iff] at hpass
  obtain ⟨⟨-, hofs⟩, -⟩ := hpass
  obtain ⟨hpid, -⟩ := hlegal
  exact ⟨startAccepted s, hstart, latchSel_pid hpid, rfl,
    (latchSel_offset hofs).trans (effOffset_eq s.cfg), startAccepted_fsm s, rfl⟩

/-- Settles O6: each bit is the test of START it is named after. -/
theorem startRejectsAnIllegalConfiguration : Obligations.StartRejectsAnIllegalConfiguration := by
  intro s hidle hillegal
  have hofs : errOfs s.cfg = true ↔ s.cfg.ofsExpl = true ∧ ¬ (-4 < s.cfg.offset.toInt ∧ s.cfg.offset.toInt < 184) := by
    refine (errOfs_iff s.cfg).trans (and_congr_right fun _ => ?_)
    omega
  exact ⟨startHalted s, exec_hostStart_illegal hidle hillegal, rfl, rfl, errPid_iff s.cfg, hofs, errMis_iff s.cfg, rfl⟩

/-- Settles O2: RESET sets the whole core, and in a write to CTRL its bit is tested first. -/
theorem hostResetRestoresTheResetState : Obligations.HostResetRestoresTheResetState := by
  refine ⟨fun s => ⟨s.resetCore, rfl, s.resetCore_hasResetValues, rfl, rfl, rfl, rfl,
      fun addr => readReg_resetCore addr s⟩,
    fun _ => rfl, fun c w hreset => ?_⟩
  simp only [decode, decodeReg, Bool.true_eq_false, if_false, if_true, hreset]

/-- Settles O3, one configuration register after the other. -/
theorem configurationWritesStoreInIdle : Obligations.ConfigurationWritesStoreInIdle := by
  intro s w hidle
  refine ⟨?pid, ?offset, ?ctrl⟩
  case pid => rw [exec, execHostCfgwrPid, writeCfg_idle hidle, low16_eq_setWidth]
  case offset => rw [exec, execHostCfgwrOffset, writeCfg_idle hidle, low16_eq_setWidth]
  case ctrl => rw [exec, execHostCfgwrCtrl, writeCfg_idle hidle, ctrlMode_eq, ctrlExplicit_eq]

/-- Settles O9: the operation of a read is the record of the word read. -/
theorem hostReadHasNoSideEffect : Obligations.HostReadHasNoSideEffect := fun _ _ => rfl

end

section
/-! PROOFS. The default PAYLOAD_OFFSET: a number of the two AFC bits and of P[4] (R146, R147, R149). -/

namespace Sys2Proof

/-! ## The two AFC bits -/

/-- `has_payload` is the lower digit of AFC (R146). -/
theorem Packet.hasPayload_eq (p : Packet) : p.hasPayload = decide (p.afc.toNat % 2 = 1) :=
  Nat.testBit_zero p.afc.toNat

/-- `has_adaptation` is the upper digit of AFC (R146). -/
theorem Packet.hasAdaptation_eq (p : Packet) : p.hasAdaptation = decide (p.afc.toNat / 2 % 2 = 1) :=
  Nat.testBit_eq_decide_div_mod_eq

/-! ## The default offset -/

/-- The three lines of R149, by the number in AFC. -/
theorem Packet.standardOffset_eq (p : Packet) :
    p.standardOffset =
      if p.afc.toNat % 2 = 1 then if p.afc.toNat / 2 % 2 = 1 then 5 + (p.byte 4).toNat else 4 else 188 := by
  simp only [standardOffset, hasPayload_eq, hasAdaptation_eq, decide_eq_false_iff_not, ite_not]
  rfl

theorem Packet.payloadOffset_of_standard {k : Params} (hk : k.payload = .standard) (p : Packet) :
    p.payloadOffset k = p.standardOffset := by
  simp only [payloadOffset, hk]

/-- The longest adaptation field that P[4] can announce ends past the packet, at 260 (R149). -/
theorem Packet.standardOffset_le (p : Packet) : p.standardOffset ≤ 260 := by
  have hafl := (p.byte 4).isLt
  rw [standardOffset_eq]
  split_ifs <;> omega

end Sys2Proof

open Sys2Proof Sys2Proof.Machine

/-- Settles O22: each AFC value selects its line of R149, and the longest line is bounded by the width of P[4]. -/
theorem standardPayloadOffsetByAfc : Obligations.StandardPayloadOffsetByAfc := by
  intro k p hk
  have hfour := four_le_payloadOffset k p
  rw [Packet.payloadOffset_of_standard hk] at hfour ⊢
  refine ⟨?noPayload, ?payloadOnly, ?both, hfour, p.standardOffset_le⟩
  case noPayload => rintro (hafc | hafc) <;> simp [Packet.standardOffset_eq, hafc]
  case payloadOnly => intro hafc; simp [Packet.standardOffset_eq, hafc]
  case both => intro hafc; simp [Packet.standardOffset_eq, hafc]

end

section
/-! PROOFS. The synchronizer: a byte of the source enters the window (R161), the end of the source discards it (R166, R167), a
full window is yielded or slides by its first byte (R162 to R164), and what these do to a stretch of bytes (R165, R169). -/

namespace Sys2Proof.Machine

/-! ## A byte enters the window -/

theorem exec_srcByte_running {s : State} (hr : s.running = true) (hfill : s.sync.fill < tsSize) (b : Byte) :
    exec (.srcByte b) s = .next (byteTaken b s) := (if_pos hr).trans (if_pos hfill)

/-- When the host has neither an input nor a turn, a core that reads takes the next symbol (R64; log entry 5). -/
theorem fetch_symbol {s : State} {v : BitVec 10} {vs : List (BitVec 10)} (hp : s.phase = .idle) (hr : s.running = true)
    (hhost : s.env.host = []) (hturns : s.env.turns = []) (hsource : s.env.source = v :: vs) :
    fetch s = .word (.sym v) (s.moved { s.env with source := vs } [.source v]) := by
  have hmover : s.env.mover = .source := by simp only [Env.mover, hturns, hhost, if_true]
  simp only [fetch, hp, fetchInput, hmover, State.passTurn_of_no_turns hturns, fetchSource, hr, if_true, hsource,
    State.moved]

/-! ## The evaluation of a full window -/

/-- The sync field of the window's header word is byte 0 of the window (R91, R162). -/
theorem decodeWindow_windowHeader (m : Memory) :
    decodeWindow (windowHeader m) =
      if m.read 0 = 0x47 then .winValid (windowHeader m) else .winInvalid (windowHeader m) := by
  simp only [decodeWindow, headerSync, windowHeader, append4_high, beq_iff_eq, syncMarker]

theorem step_of_valid_window {s : State} (hp : s.phase = .window) (hsync : s.sync.win.read 0 = 0x47) :
    step s = execWinValid (windowHeader s.sync.win) s := by
  rw [step_of_window hp, decodeWindow_windowHeader, if_pos hsync, exec]

theorem step_of_invalid_window {s : State} (hp : s.phase = .window) (hsync : s.sync.win.read 0 ≠ 0x47) :
    step s = .next (s.enterResync.slideWindow.goto .idle) := by
  rw [step_of_window hp, decodeWindow_windowHeader, if_neg hsync]
  rfl

/-! ## The slide -/

/-- A loss event that is on is not raised again (R164). -/
theorem enterResync_of_resync {s : State} (hq : s.sync.resync = true) : s.enterResync = s := if_pos hq

theorem slideWindow_goto_idle_win (s : State) :
    (s.slideWindow.goto .idle).sync.win = s.sync.win.writeN 0 (s.sync.win.readN 1 187) := by simp

/-- The first window of a loss event raises SYNC_LOSS (R164). -/
theorem enterResync_of_in_sync {s : State} (hq : s.sync.resync = false) :
    s.enterResync = { s with sync := { s.sync with resync := true } }.event .syncLoss 0 :=
  if_neg (Bool.eq_false_iff.mp hq)

section
variable {m : Memory} (h : m.wf = true)
include h

/-- The bytes behind the first move down by one; WIN[187] stays (R164). -/
theorem Memory.read_slide (n x : Nat) :
    (m.writeN 0 (m.readN 1 n)).read x = if x < n then m.read (x + 1) else m.read x := by
  rw [Memory.read_writeN h, Memory.readN_length, Nat.zero_add]
  by_cases hx : x < n
  · rw [if_pos ⟨Nat.zero_le x, hx⟩, if_pos hx, Nat.sub_zero, Memory.readN_getD m 1 n x hx, Nat.add_comm]
  · rw [if_neg fun hin => hx hin.2, if_neg hx]

theorem Memory.readN_slide (n : Nat) : (m.writeN 0 (m.readN 1 n)).readN 0 n = m.readN 1 n := by
  have hfront := Memory.readN_writeN h 0 (m.readN 1 n)
  rwa [Memory.readN_length] at hfront

/-- One byte more behind the first `n`. -/
theorem Memory.readN_write_next (n : Nat) (b : Byte) : (m.write n b).readN 0 (n + 1) = m.readN 0 n ++ [b] :=
  Memory.readN_writeN_append h n [b]

/-- The same without the first byte: the window moved by one (R165). -/
theorem Memory.readN_tail_write_next (n : Nat) (b : Byte) :
    (m.write (n + 1) b).readN 1 (n + 1) = m.readN 1 n ++ [b] :=
  (List.cons.inj (Memory.readN_write_next h (n + 1) b)).2

end

/-! ## A stretch of bytes -/

/-- The call that is due once the window holds `n` bytes (R161, R162). -/
def fillPhase (n : Nat) : Phase := if n = tsSize then .window else .idle

/-- The SYM words of a stretch of bytes (R99). -/
def byteSymbols (bs : List Byte) : List (BitVec 10) := bs.map fun b => 0#2 ++ b

/-- A run in which the source offers the bytes `bs`, which fit in the window, and then `ws`; the host has neither an input
nor a turn. -/
structure OffersBytes (bs : List Byte) (ws : List (BitVec 10)) (s : State) : Prop where
  running : s.running = true
  phase : s.phase = fillPhase s.sync.fill
  room : s.sync.fill + bs.length ≤ tsSize
  srcPosFits : fits s.params s.sync.srcPos
  noHost : s.env.host = []
  noTurns : s.env.turns = []
  source : s.env.source = byteSymbols bs ++ ws

/-- The state after the bytes `bs` have entered the window one by one, with `ws` still to come (R161). -/
def bytesTaken (bs : List Byte) (ws : List (BitVec 10)) (s : State) : State :=
  { s with
    sync := { s.sync with
      srcPos := (s.sync.srcPos + bs.length) % 2 ^ s.params.cntW
      win := s.sync.win.writeN s.sync.fill bs
      fill := s.sync.fill + bs.length }
    phase := fillPhase (s.sync.fill + bs.length)
    env := { s.env with source := ws }
    trace := s.trace ++ (byteSymbols bs).map .source }

theorem bytesTaken_nil {ws : List (BitVec 10)} {s : State} (h : OffersBytes [] ws s) : bytesTaken [] ws s = s := by
  have hpos : s.sync.srcPos % 2 ^ s.params.cntW = s.sync.srcPos := Nat.mod_eq_of_lt h.srcPosFits
  have hsource : s.env.source = ws := h.source
  simp [bytesTaken, byteSymbols, hpos, ← hsource, ← h.phase]

theorem bytesTaken_cons (b : Byte) (bs : List Byte) (ws vs : List (BitVec 10)) (s : State) :
    bytesTaken bs ws (bytesTaken [b] vs s) = bytesTaken (b :: bs) ws s := by
  simp [bytesTaken, byteSymbols, Memory.writeN, Nat.add_assoc, Nat.add_comm 1]

section
variable {b : Byte} {bs : List Byte} {ws : List (BitVec 10)} {s : State} (h : OffersBytes (b :: bs) ws s)
include h

theorem OffersBytes.room_cons : s.sync.fill + 1 + bs.length ≤ tsSize := by
  have hroom := h.room
  rw [List.length_cons] at hroom
  omega

theorem OffersBytes.step : Machine.step s = .next (bytesTaken [b] (byteSymbols bs ++ ws) s) := by
  have hfill : s.sync.fill < tsSize := by have hroom := h.room_cons; omega
  have hidle : s.phase = .idle := h.phase.trans (if_neg hfill.ne)
  have hfetch := fetch_symbol hidle h.running h.noHost h.noTurns h.source
  rw [step_of_decode hfetch (decodeSym_byte b)]
  exact exec_srcByte_running (s := s.moved _ _) h.running hfill b

theorem OffersBytes.next : OffersBytes bs ws (bytesTaken [b] (byteSymbols bs ++ ws) s) :=
  { h with
    phase := rfl
    room := h.room_cons
    srcPosFits := Nat.mod_lt _ (Nat.two_pow_pos _)
    source := rfl }

end

/-- Each of the bytes offered takes one step to enter the window (log entry 3). -/
theorem OffersBytes.run {bs : List Byte} {ws : List (BitVec 10)} {s : State} (h : OffersBytes bs ws s) (k : Nat) :
    core.run (bs.length + k) s = core.run k (bytesTaken bs ws s) := by
  induction bs generalizing s with
  | nil => rw [bytesTaken_nil h, List.length_nil, Nat.zero_add]
  | cons b bs ih =>
    have hcore : core.step s = .next (bytesTaken [b] (byteSymbols bs ++ ws) s) := h.step
    rw [← bytesTaken_cons b bs ws (byteSymbols bs ++ ws), ← ih h.next, List.length_cons, Nat.add_right_comm]
    simp only [Host.Core.run, hcore]

theorem run_one {s t : State} (h : step s = .next t) : core.run 1 s = .next t := by
  have hcore : core.step s = .next t := h
  simp only [Host.Core.run, hcore]

/-! ## The invariant between operations -/

section
variable {s : State} (h : Inv s) (hp : s.phase = .idle)
include h hp

theorem Inv.fill_lt : s.sync.fill < tsSize := h.fillRange.resolve_left (by rw [hp]; decide)

/-- In resync mode the core waits for the last byte of the window (R22, R23). -/
theorem Inv.at_resync (hq : s.sync.resync = true) : s.running = true ∧ s.sync.fill = 187 := by
  obtain ⟨hr, hlow⟩ := h.resyncRange hq
  exact ⟨hr, Nat.le_antisymm (Nat.le_of_lt_succ (h.fill_lt hp)) hlow⟩

theorem Inv.offersBytes {bs : List Byte} {ws : List (BitVec 10)} (hr : s.running = true) (hhost : s.env.host = [])
    (hturns : s.env.turns = []) (hroom : s.sync.fill + bs.length ≤ tsSize) (hsource : s.env.source = byteSymbols bs ++ ws) :
    OffersBytes bs ws s where
  running := hr
  phase := hp.trans (if_neg (h.fill_lt hp).ne).symm
  room := hroom
  srcPosFits := h.srcPosFits
  noHost := hhost
  noTurns := hturns
  source := hsource

end

end Sys2Proof.Machine

open Sys2Proof Sys2Proof.Machine

/-- Settles O12: the state after the byte is `byteTaken`, and a write is read back at its address alone. -/
theorem sourceByteEntersTheWindow : Obligations.SourceByteEntersTheWindow := by
  intro s b hr hfill hwf
  have hread := Memory.read_write hwf s.sync.fill b
  exact ⟨byteTaken b s, exec_srcByte_running hr hfill b, rfl, (hread _).trans (if_pos rfl),
    fun a ha => (hread a).trans (if_neg ha), Memory.wf_write hwf _ b, rfl, rfl,
    by simp [byteTaken, tsSize], rfl⟩

/-- Settles O18: the loss event is entered first, and the slide then moves the bytes of WIN alone. -/
theorem invalidWindowSlidesByOneByte : Obligations.InvalidWindowSlidesByOneByte := by
  intro s h hwf
  have hwin : (s.enterResync.slideWindow.goto .idle).sync.win = s.sync.win.writeN 0 (s.sync.win.readN 1 187) := by
    rw [slideWindow_goto_idle_win, State.enterResync_win]
  refine ⟨_, rfl, fun a ha => ?moved, fun a ha => ?kept, ?wf, by simp, by simp, by simp, rfl, by simp, by simp, by simp,
    by simp, by simp, by simp, by simp, fun hq => ?again, fun hq => ?first⟩
  case moved => rw [hwin, Memory.read_slide hwf, if_pos ha]
  case kept => rw [hwin, Memory.read_slide hwf, if_neg (Nat.not_lt.mpr ha)]
  case wf => rw [hwin]; exact Memory.wf_writeN hwf 0 _
  case again => simp [enterResync_of_resync hq]
  case first => simp [enterResync_of_in_sync hq, setSticky, countEvent, inc]

/-- Settles O19: the byte fills the window, and the evaluation yields it or slides it without a new event. -/
theorem resyncMovesOneByteDownTheStream : Obligations.ResyncMovesOneByteDownTheStream := by
  intro s b ws hinv hp hq hhost hturns hsource
  obtain ⟨hr, hfill⟩ := hinv.at_resync hp hq
  have hoffer : OffersBytes [b] ws s := hinv.offersBytes hp hr hhost hturns (by simp [hfill]) hsource
  have hwindow : (bytesTaken [b] ws s).phase = .window := by simp [bytesTaken, fillPhase, hfill]
  have hwin : (bytesTaken [b] ws s).sync.win = s.sync.win.write 187 b := by rw [← hfill]; rfl
  have hfirst : (bytesTaken [b] ws s).sync.win.read 0 = s.sync.win.read 0 := by
    rw [hwin, Memory.read_write hinv.winWf, if_neg (by decide)]
  by_cases hsync : s.sync.win.read 0 = 0x47
  · have hstep := step_of_valid_window hwindow (hfirst.trans hsync)
    refine ⟨_, (hoffer.run 1).trans (run_one hstep), rfl, rfl, fun _ => ⟨rfl, rfl, ?_⟩, fun hne => absurd hsync hne⟩
    rw [hwin]
    exact congrArg Phase.packet (Memory.readN_write_next hinv.winWf 187 b)
  · have hstep := step_of_invalid_window hwindow (fun h => hsync (hfirst.symm.trans h))
    rw [enterResync_of_resync (s := bytesTaken [b] ws s) hq] at hstep
    refine ⟨_, (hoffer.run 1).trans (run_one hstep), by simp [bytesTaken], by simp [bytesTaken], fun h => absurd h hsync,
      fun _ => ⟨by simpa [bytesTaken] using hq, by simp, rfl, ?_⟩⟩
    rw [slideWindow_goto_idle_win, hwin, Memory.readN_slide (Memory.wf_write hinv.winWf 187 b)]
    exact Memory.readN_tail_write_next hinv.winWf 186 b

/-- Settles O20: the 188 bytes fill the window one step each, and its evaluation finds the marker they begin with. -/
theorem alignedPacketIsYielded : Obligations.AlignedPacketIsYielded := by
  intro s p ws hinv hr hp hfill hhost hturns hlen hsync hsource
  have hoffer : OffersBytes p ws s := hinv.offersBytes hp hr hhost hturns (by rw [hfill, hlen]) hsource
  have hwindow : (bytesTaken p ws s).phase = .window := by simp [bytesTaken, fillPhase, hfill, hlen]
  have hpacket : (bytesTaken p ws s).sync.win.readN 0 tsSize = p := by
    have hwin : (bytesTaken p ws s).sync.win = s.sync.win.writeN 0 p := by rw [← hfill]; rfl
    have hwritten := Memory.readN_writeN hinv.winWf 0 p
    rwa [hlen, ← hwin] at hwritten
  have hfirst : (bytesTaken p ws s).sync.win.read 0 = 0x47 := by
    have hbyte := Memory.readN_getD (bytesTaken p ws s).sync.win 0 tsSize 0 (by decide)
    rw [hpacket] at hbyte
    exact hbyte.symm.trans hsync
  have hrun := (hoffer.run 1).trans (run_one (step_of_valid_window hwindow hfirst))
  rw [hlen] at hrun
  refine ⟨_, hrun, congrArg Phase.packet hpacket, rfl, rfl, rfl, rfl, rfl, ?_, rfl, rfl⟩
  simp only [bytesTaken, hlen]

/-- Settles O13: in a run both ends discard the window and go on to `terminate`. -/
theorem sourceEndCallsTerminate : Obligations.SourceEndCallsTerminate :=
  fun _ hr => ⟨execSrcEos_running hr, execSrcErr_running hr⟩

/-- Settles O16: the decoder is given the header word of the window and looks at its sync field. -/
theorem windowEvaluationTestsTheFirstByte : Obligations.WindowEvaluationTestsTheFirstByte := by
  intro s hp
  have hfetch : fetch s = .word (.tsh (windowHeader s.sync.win)) s := by simp only [fetch, hp]
  have hbyte : s.sync.win.read 0 = 0x47 ↔ (s.sync.win.read 0).toNat = 0x47 := BitVec.toNat_inj.symm
  rw [nextInstr_of_decode hfetch rfl, decodeWindow_windowHeader]
  simp only [hbyte, windowHeader]

/-- Settles O17: the packet is the range of the 188 window bytes. -/
theorem validWindowYieldsThePacket : Obligations.ValidWindowYieldsThePacket := by
  intro s h
  refine ⟨_, s.sync.win.readN 0 188, rfl, rfl, Memory.readN_length _ 0 188, fun i hi => ?_, rfl⟩
  exact (Memory.readN_getD s.sync.win 0 188 i hi).trans (by rw [Nat.zero_add])

end

section
/-! PROOFS. The payload extractor: the gate (R183, R184), the continuity check (R186), what no packet class changes (R198), and
the span a packet hands over (R188 to R195). -/

namespace Sys2Proof.Machine

/-! ## The gate and the continuity check -/

/-- The gate opens for a unit start without transport error, at a closed gate of ETI-NI, and leaves FSM alone otherwise. -/
theorem openGate_fsm (p : Packet) (s : State) :
    (s.openGate p).framer.fsm =
      if s.sel.mode = .ni ∧ s.framer.fsm = .awaitingSync ∧ p.unitStart = true ∧ p.transportError = false then .streaming
      else s.framer.fsm := by
  simp only [State.openGate, Packet.qualifies, Bool.and_eq_true, Bool.not_eq_true']
  split <;> rfl

/-- A packet with a transport error never opens the gate (R183). -/
theorem openGate_of_transportError {p : Packet} (htei : p.transportError = true) (s : State) : s.openGate p = s := by
  rcases openGate_cases p s with ⟨⟨-, -, hq⟩, -⟩ | ⟨-, e⟩
  · simp [Packet.qualifies, htei] at hq
  · exact e

/-- The continuity counter of a packet is its byte 3 modulo 16 (R145). -/
theorem toNat_continuityCounter (p : Packet) : p.continuityCounter.toNat = (p.byte 3).toNat % 16 := by
  rw [Packet.continuityCounter, toNat_field, Nat.pow_zero, Nat.div_one]
  rfl

theorem discontinuity_iff (e : ExtractorState) (cc : Cc) :
    discontinuity e cc = true ↔ e.lastCcValid = true ∧ cc.toNat ≠ (e.lastCc.toNat + 1) % 16 := by
  rw [discontinuity, Bool.and_eq_true, bne_iff_ne, ne_eq, ne_eq, ← BitVec.toNat_inj, BitVec.toNat_add]
  rfl

theorem toNat_ccInfo (recorded new : Cc) : (ccInfo recorded new).toNat = recorded.toNat * 16 + new.toNat := by
  rw [ccInfo, BitVec.toNat_append, ← Nat.shiftLeft_add_eq_or_of_lt new.isLt, Nat.shiftLeft_eq]

/-- What gate and check report: CC_DISC exactly on a discontinuity (R186). -/
theorem gateAndCheck_reports (p : Packet) (s : State) :
    (discontinuity s.extractor p.continuityCounter = true ∧
      (s.gateAndCheck p).diag = setSticky .ccDisc s.diag ∧
      (s.gateAndCheck p).counters = countEvent s.params .ccDisc s.counters ∧
      (s.gateAndCheck p).trace = s.trace ++ [.event .ccDisc (ccInfo s.extractor.lastCc p.continuityCounter)]) ∨
    (discontinuity s.extractor p.continuityCounter = false ∧
      (s.gateAndCheck p).diag = s.diag ∧ (s.gateAndCheck p).counters = s.counters ∧
      (s.gateAndCheck p).trace = s.trace) := by
  have hcases := continuity_cases p (s.openGate p)
  rw [State.openGate_extractor] at hcases
  rcases hcases with ⟨hd, e⟩ | ⟨hd, e⟩
  · exact .inl ⟨hd, by simp [State.gateAndCheck, e], by simp [State.gateAndCheck, e], by simp [State.gateAndCheck, e]⟩
  · exact .inr ⟨hd, by simp [State.gateAndCheck, e], by simp [State.gateAndCheck, e], by simp [State.gateAndCheck, e]⟩

@[simp] theorem gateAndCheck_evTei (p : Packet) (s : State) : (s.gateAndCheck p).diag.evTei = s.diag.evTei := by
  rcases gateAndCheck_reports p s with ⟨-, e, -⟩ | ⟨-, e, -⟩ <;> rw [e]
  rfl

@[simp] theorem gateAndCheck_tei (p : Packet) (s : State) : (s.gateAndCheck p).counters.tei = s.counters.tei := by
  rcases gateAndCheck_reports p s with ⟨-, -, e, -⟩ | ⟨-, -, e, -⟩ <;> rw [e]
  rfl

@[simp] theorem gateAndCheck_pktFwd (p : Packet) (s : State) : (s.gateAndCheck p).counters.pktFwd = s.counters.pktFwd := by
  rcases gateAndCheck_reports p s with ⟨-, -, e, -⟩ | ⟨-, -, e, -⟩ <;> rw [e]
  rfl

/-! ## What a packet operation can do -/

/-- The state in which an operation past the skip test computes its payload start: gate and check are done, and a transport
error is reported (R180, R188). -/
def examined (p : Packet) (i : Instr) (s : State) : State :=
  match i with
  | .pktFwdTei _ => (s.gateAndCheck p).event .tei 0
  | _ => s.gateAndCheck p

theorem examined_cases (p : Packet) (i : Instr) (s : State) :
    examined p i s = s.gateAndCheck p ∨ examined p i s = (s.gateAndCheck p).event .tei 0 := by
  unfold examined
  split
  · exact .inr rfl
  · exact .inl rfl

/-- The state after the span from `start` on has been handed to the framer (R195). -/
def forwarded (p : Packet) (start : Int) (u : State) : State :=
  { u with
    counters := { u.counters with pktFwd := inc u.params u.counters.pktFwd }
    phase := .absorb (spanFrom p start) }

/-- How an operation past the skip test ends: the packet is forwarded, or the run is over (R192 to R195). -/
inductive Extracts (p : Packet) (u : State) : State → Prop
  | forwarded (start : Int) : Extracts p u (forwarded p start u)
  | bounds : Extracts p u (u.halt .bounds)

theorem handOver_inside {start : Int} (h0 : 0 ≤ start) (h188 : start ≤ 188) (p : Packet) (u : State) :
    handOver p start u = .next (forwarded p start u) :=
  if_pos ((inBounds_iff start).mpr ⟨h0, h188⟩)

theorem handOver_outside {start : Int} (h : 188 < start) (p : Packet) (u : State) :
    handOver p start u = .next (u.halt .bounds) :=
  if_neg fun hin => not_lt.mpr ((inBounds_iff start).mp hin).2 h

theorem handOver_extracts {p : Packet} {start : Int} {u t : State} (h : handOver p start u = .next t) : Extracts p u t := by
  rcases handOver_cases p start u with ⟨-, -, e⟩ | ⟨-, e⟩
  · cases e.symm.trans h
    exact .forwarded start
  · cases e.symm.trans h
    exact .bounds

theorem checkedClass_extracts {p : Packet} {i : Instr} {s t : State} (hi : checkedClass p i) (h : exec i s = .next t) :
    Extracts p (examined p i s) t := by
  rcases hi with rfl | rfl | rfl | rfl
  · exact handOver_extracts (start := teiStart) h
  · exact handOver_extracts (start := posStart s p) h
  · exact handOver_extracts (start := negStart s) h
  · cases h
    exact .bounds

theorem packetOf_cases {p : Packet} {i : Instr} (hi : packetOf i = some p) :
    i = .pktDrop p ∨ i = .pktSkip p ∨ checkedClass p i := by
  cases i <;> cases hi
  case pktDrop => exact .inl rfl
  case pktSkip => exact .inr (.inl rfl)
  case pktFwdTei => exact .inr (.inr (.inl rfl))
  case pktFwdPos => exact .inr (.inr (.inr (.inl rfl)))
  case pktFwdNeg => exact .inr (.inr (.inr (.inr (.inl rfl))))
  case pktBounds => exact .inr (.inr (.inr (.inr (.inr rfl))))

/-- After the check a class records and reports nothing more of continuity (R186, R188). -/
theorem checkedClass_after_check {p : Packet} {i : Instr} {s t : State} (hi : checkedClass p i) (h : exec i s = .next t) :
    t.extractor = ⟨true, p.continuityCounter⟩ ∧ t.diag.evCcDisc = (s.gateAndCheck p).diag.evCcDisc ∧
    t.counters.ccDisc = (s.gateAndCheck p).counters.ccDisc ∧
    ∃ v, t.trace = (s.gateAndCheck p).trace ++ v ∧ ∀ info, .event .ccDisc info ∉ v := by
  have hkept : t.extractor = (examined p i s).extractor ∧ t.diag = (examined p i s).diag ∧
      t.counters.ccDisc = (examined p i s).counters.ccDisc ∧ t.trace = (examined p i s).trace := by
    cases checkedClass_extracts hi h <;> exact ⟨rfl, rfl, rfl, rfl⟩
  obtain ⟨hext, hdiag, hcount, htrace⟩ := hkept
  rw [hext, hdiag, hcount, htrace]
  rcases examined_cases p i s with e | e
  · rw [e]
    exact ⟨gateAndCheck_extractor p s, rfl, rfl, [], by simp, by simp⟩
  · rw [e]
    exact ⟨gateAndCheck_extractor p s, rfl, rfl, [.event .tei 0], rfl, by simp⟩

/-! ## What no packet operation changes -/

/-- The state without what a packet operation may change (R198): FSM, HALT_CAUSE, the continuity cell, the flags and counters
of CC_DISC and TEI, CNT_PKT_FWD, the place inside the operation and the record. -/
def State.besidesExtraction (s : State) : State :=
  { s with
    framer := { s.framer with fsm := .idle }
    status := { s.status with haltCause := .none }
    extractor := State.reset.extractor
    diag := { s.diag with evCcDisc := false, evTei := false }
    counters := { s.counters with pktFwd := 0, ccDisc := 0, tei := 0 }
    phase := .idle
    trace := [] }

/-- From `s` to `t` nothing changes but what a packet operation may change, and the record grows without delivering. -/
structure KeepsFrame (s t : State) : Prop where
  rest : t.besidesExtraction = s.besidesExtraction
  delivered : t.delivered = s.delivered
  record : s.trace <+: t.trace

theorem KeepsFrame.trans {s t u : State} (h : KeepsFrame s t) (h' : KeepsFrame t u) : KeepsFrame s u :=
  ⟨h'.rest.trans h.rest, h'.delivered.trans h.delivered, h.record.trans h'.record⟩

theorem KeepsFrame.silent {s t : State} (hrest : t.besidesExtraction = s.besidesExtraction) (h : t.trace = s.trace) :
    KeepsFrame s t :=
  ⟨hrest, by rw [State.delivered, h, State.delivered], h ▸ List.prefix_rfl⟩

theorem keepsFrame_event {kind : EventKind} (hk : kind ≠ .syncLoss) (info : BitVec 8) (s : State) :
    KeepsFrame s (s.event kind info) := by
  refine ⟨?_, State.event_delivered kind info s, List.prefix_append _ _⟩
  cases kind with
  | syncLoss => exact absurd rfl hk
  | ccDisc => rfl
  | tei => rfl

theorem keepsFrame_gateAndCheck (p : Packet) (s : State) : KeepsFrame s (s.gateAndCheck p) := by
  have hgate : KeepsFrame s (s.openGate p) := by
    rcases openGate_cases p s with ⟨-, e⟩ | ⟨-, e⟩ <;> rw [e] <;> exact .silent rfl rfl
  refine hgate.trans ?_
  rw [State.gateAndCheck]
  rcases continuity_cases p (s.openGate p) with ⟨-, e⟩ | ⟨-, e⟩
  · rw [e]
    exact (keepsFrame_event (by decide) _ _).trans (.silent rfl rfl)
  · rw [e]
    exact .silent rfl rfl

theorem keepsFrame_examined (p : Packet) (i : Instr) (s : State) : KeepsFrame s (examined p i s) := by
  have hchecked := keepsFrame_gateAndCheck p s
  rcases examined_cases p i s with e | e
  · exact e ▸ hchecked
  · exact e ▸ hchecked.trans (keepsFrame_event (by decide) _ _)

theorem Extracts.keepsFrame {p : Packet} {u t : State} (h : Extracts p u t) : KeepsFrame u t := by
  cases h <;> exact .silent rfl rfl

theorem packet_keepsFrame {p : Packet} {i : Instr} {s t : State} (hi : packetOf i = some p) (h : exec i s = .next t) :
    KeepsFrame s t := by
  rcases packetOf_cases hi with rfl | rfl | hchecked
  · cases h
    exact .silent rfl rfl
  · cases h
    exact .silent rfl rfl
  · exact (keepsFrame_examined p i s).trans (checkedClass_extracts hchecked h).keepsFrame

/-! ## The span -/

/-- Byte `i` of the span is byte `start + i` of the packet (R194). -/
theorem drop_getD_eq_byte (p : Packet) (start i : Nat) : (p.drop start).getD i 0 = p.byte (start + i) := by
  simp [Packet.byte, List.getD_eq_getElem?_getD]

/-- Forwarding after gate and check: the end of the packet from its start, counted, and no other report (R194, R195). -/
theorem handOver_gateAndCheck {p : Packet} {start : Nat} (hv : p.valid = true) (hle : start ≤ 188) (s : State) :
    ∃ t span, handOver p start (s.gateAndCheck p) = .next t ∧ t.phase = .absorb span ∧ span.length = 188 - start ∧
      (∀ i, i < 188 - start → span.getD i 0 = p.byte (start + i)) ∧
      t.status = s.status ∧ t.counters.tei = s.counters.tei ∧ t.diag.evTei = s.diag.evTei ∧
      t.counters.pktFwd = (s.counters.pktFwd + 1) % 2 ^ s.params.cntW := by
  have hlen := ((Packet.valid_iff p).mp hv).1
  refine ⟨_, p.drop start, handOver_inside (by omega) (by omega) p _, rfl, by rw [List.length_drop, hlen],
    fun i _ => drop_getD_eq_byte p start i, ?_⟩
  simp [forwarded, inc]

/-! ## Payload start and selection -/

/-- A packet with a payload and no adaptation field has its payload at the header boundary, with the default and with a
replacement (R149, R151). -/
theorem payloadOffset_of_afc {p : Packet} (hafc : p.afc = 1) (k : Params) : p.payloadOffset k = 4 := by
  unfold Packet.payloadOffset
  split
  · rw [Packet.standardOffset_eq, hafc]
    rfl
  · exact if_pos hafc

theorem nextInstr_of_packet {s : State} {p : Packet} (hp : s.phase = .packet p) (hv : p.valid = true) :
    s.nextInstr = some (classify s.ctx p) :=
  nextInstr_of_decode (w := .tsp p) (by simp only [fetch, hp]) (decode_tsp s.ctx hv)

/-- The class is DROP exactly for a packet that is not selected (R111, R182). -/
theorem classify_eq_drop_iff (c : ClassCtx) (p : Packet) : classify c p = .pktDrop p ↔ ¬ c.selects p = true := by
  refine ⟨fun h => ?_, fun h => classify_eq_of_selectedBy rfl h⟩
  have hs := classify_selectedBy c p
  rwa [h] at hs

theorem not_selects_iff (c : ClassCtx) (p : Packet) :
    ¬ c.selects p = true ↔ 0 ≤ c.selOffset.toInt ∧ p.pid ≠ c.selPid := by
  simp only [ClassCtx.selects, Bool.or_eq_true, Bool.and_eq_true, decide_eq_true_eq, beq_iff_eq, not_or, not_and, not_lt]
  exact ⟨fun ⟨hne, hpos⟩ => ⟨hpos, hne hpos⟩, fun ⟨hpos, hne⟩ => ⟨fun _ => hne, hpos⟩⟩

end Sys2Proof.Machine

open Sys2Proof Sys2Proof.Machine

/-- Settles O27: the check reports before the payload start is computed, and nothing behind it reports a discontinuity. -/
theorem continuityCheckRecordsAndReports : Obligations.ContinuityCheckRecordsAndReports := by
  intro s t p i hi h
  obtain ⟨hext, hsticky, hcount, v, htrace, hv⟩ := checkedClass_after_check hi h
  have hdisc := discontinuity_iff s.extractor p.continuityCounter
  rw [hext, hsticky, hcount, htrace, ← toNat_continuityCounter]
  refine ⟨rfl, rfl, fun hvalid hne => ?reported, fun hno => ?silent⟩
  case reported =>
    rcases gateAndCheck_reports p s with ⟨-, hd, hc, ht⟩ | ⟨hd, -⟩
    · rw [hd, hc, ht]
      exact ⟨rfl, rfl, _, toNat_ccInfo _ _, List.prefix_append _ _⟩
    · exact absurd (hdisc.mpr ⟨hvalid, hne⟩) (by simp [hd])
  case silent =>
    rcases gateAndCheck_reports p s with ⟨hd, -⟩ | ⟨-, hd, hc, ht⟩
    · obtain ⟨hvalid, hne⟩ := hdisc.mp hd
      exact absurd hno (by simp [hvalid, hne])
    · rw [hd, hc, ht]
      refine ⟨rfl, rfl, fun info hprefix => hv info ?_⟩
      exact ((List.prefix_append_right_inj _).mp hprefix).subset (List.mem_singleton_self _)

/-- Settles O28: what follows the gate moves FSM to HALTED only. -/
theorem gateOpensForAQualifyingPacket : Obligations.GateOpensForAQualifyingPacket := by
  intro s t p i hi h hrun
  have hfsm : t.framer.fsm = (s.openGate p).framer.fsm := by
    have hexamined : (examined p i s).framer = (s.openGate p).framer := by
      rcases examined_cases p i s with e | e <;> simp [e]
    rw [← hexamined]
    cases checkedClass_extracts hi h with
    | forwarded start => rfl
    | bounds => exact absurd rfl hrun
  rw [hfsm, openGate_fsm]
  exact ⟨fun hni hawait hstart htei => if_pos ⟨hni, hawait, hstart, htei⟩, fun hnot => if_neg hnot⟩

/-- Settles O29: the start is 4 for every offset, the gate stays as it is, and the report comes last. -/
theorem transportErrorPacketIsForwardedWhole : Obligations.TransportErrorPacketIsForwardedWhole := by
  intro s p hv htei
  have hlen := ((Packet.valid_iff p).mp hv).1
  have hframer : (s.gateAndCheck p).framer = s.framer := by
    rw [State.gateAndCheck_framer, openGate_of_transportError htei]
  refine ⟨_, p.drop 4, handOver_inside (start := teiStart) (by decide) (by decide) p _, rfl, by rw [List.length_drop, hlen],
    fun i _ => drop_getD_eq_byte p 4 i, hframer, State.gateAndCheck_status p s, rfl, ?_, ?_,
    (s.gateAndCheck p).trace, rfl, (keepsFrame_gateAndCheck p s).record⟩
  · simp [forwarded, countEvent, inc]
  · simp [forwarded, inc]

/-- Settles O33: gate, check, report and the end of the operation each keep the frame. -/
theorem packetOperationsFrame : Obligations.PacketOperationsFrame := by
  intro s t p i hi h
  obtain ⟨hrest, hdelivered, hrecord⟩ := packet_keepsFrame hi h
  have hread {α : Type} (f : State → α) : f t.besidesExtraction = f s.besidesExtraction := congrArg f hrest
  have hbuf : t.framer.buf = s.framer.buf := hread (·.framer.buf)
  exact ⟨hread (·.params), hread (·.sync), hread (·.framer.bufLen), fun a => by rw [hbuf], hread (·.cfg), hread (·.sel),
    hread (·.env), hread (·.status.pidRange), hread (·.status.ofsRange), hread (·.status.modeOfs),
    hread (·.diag.evSyncLoss), hread (·.counters.pktRead), hread (·.counters.wr), hread (·.counters.syncLoss),
    hdelivered, hrecord⟩

/-- Settles O23: the payload begins at 4 or behind it, and a legal offset is at most 3 below and 183 above. -/
theorem payloadStartRange : Obligations.PayloadStartRange := by
  intro s p hlow hhigh
  have hfour := four_le_payloadOffset s.params p
  simp only [negStart, posStart, hdrSize]
  refine ⟨rfl, hfour, fun _ => by omega, fun _ => by omega, fun hafc => ?afcOne, fun hstd => ?standard⟩
  case afcOne =>
    have hoffset := payloadOffset_of_afc hafc s.params
    omega
  case standard =>
    have hle := p.standardOffset_le
    rw [← Packet.payloadOffset_of_standard hstd] at hle
    omega

/-- Settles O25: the step runs the packet's class, and the class is DROP exactly without selection. -/
theorem selectionRule : Obligations.SelectionRule := by
  intro s p hv hp
  rw [nextInstr_of_packet hp hv, Option.some_inj, classify_eq_drop_iff, not_selects_iff]
  rfl

/-- Settles O26: both operations only end. -/
theorem droppedAndSkippedPacketsChangeNothing : Obligations.DroppedAndSkippedPacketsChangeNothing := fun _ _ => ⟨rfl, rfl⟩

/-- Settles O30: a start of at most 188 passes the bounds check, and the span runs from it to the end of the packet. -/
theorem positiveOffsetForwardsFromItsStart : Obligations.PositiveOffsetForwardsFromItsStart := by
  intro s p start hv _ _ hstart hle
  have hexec : exec (.pktFwdPos p) s = handOver p start (s.gateAndCheck p) := by rw [hstart]; rfl
  rw [hexec]
  exact handOver_gateAndCheck hv hle s

/-- Settles O31: a negative offset starts below byte 4, inside the packet. -/
theorem negativeOffsetForwardsFromTheHeader : Obligations.NegativeOffsetForwardsFromTheHeader := by
  intro s p start hv _ hneg hstart
  have hexec : exec (.pktFwdNeg p) s = handOver p start (s.gateAndCheck p) := by rw [hstart]; rfl
  rw [hexec]
  exact handOver_gateAndCheck hv (by omega) s

/-- Settles O32: the halt keeps what gate and check did, and PKT.FWD_POS with a start past the packet halts likewise. -/
theorem boundsViolationHaltsTheRun : Obligations.BoundsViolationHaltsTheRun := by
  intro s p
  have hexec : exec (.pktBounds p) s = .next ((s.gateAndCheck p).halt .bounds) := rfl
  have hdelivered := (packet_keepsFrame (i := .pktBounds p) rfl hexec).delivered
  refine ⟨⟨_, hexec, rfl, by simp, rfl, by simp, by simp, by simp, by simp, by simp, hdelivered, by simp, by simp⟩, ?_⟩
  exact fun hout => handOver_outside (start := posStart s p) hout p _

end

section
/-! PROOFS. A packet step and the extracted stream (R181 to R195), and the closed gate, behind which nothing is written (R183,
R185). -/

namespace Sys2Proof.Machine

/-! ## What a packet step adds to the stream -/

theorem forwarded_stream {u : State} (hh : u.phase.inHand = []) (p : Packet) (start : Int) :
    (forwarded p start u).stream = u.stream ++ p.drop start.toNat :=
  (State.stream_of_inHand_nil hh).symm ▸ rfl

theorem examined_params (p : Packet) (i : Instr) (s : State) : (examined p i s).params = s.params := by
  rcases examined_cases p i s with e | e <;> simp [e]

theorem examined_pktFwd (p : Packet) (i : Instr) (s : State) :
    (examined p i s).counters.pktFwd = s.counters.pktFwd := by
  rcases examined_cases p i s with e | e <;> simp [e]

theorem examined_phase (p : Packet) (i : Instr) (s : State) : (examined p i s).phase = s.phase := by
  rcases examined_cases p i s with e | e <;> simp [e]

theorem examined_stream (p : Packet) (i : Instr) (s : State) : (examined p i s).stream = s.stream := by
  have hchecked := gateAndCheck_stream p s
  rcases examined_cases p i s with e | e
  · rw [e, hchecked]
  · rw [e, ← hchecked]
    exact State.stream_congr (State.event_delivered _ _ _) rfl rfl

/-- The packet adds nothing to the stream, is not counted, and its operation is over (R182, R185, R193). -/
def AddsNothing (s t : State) : Prop :=
  t.stream = s.stream ∧ t.counters.pktFwd = s.counters.pktFwd ∧ t.phase = .idle

/-- The packet's bytes from `start` on join the stream, and it is counted (R194, R195). -/
def AddsFrom (p : Packet) (start : Nat) (s t : State) : Prop :=
  t.stream = s.stream ++ p.drop start ∧ t.counters.pktFwd = (s.counters.pktFwd + 1) % 2 ^ s.params.cntW

section
variable {s t : State} {p : Packet} (hp : s.phase = .packet p)
include hp

theorem inHand_examined (i : Instr) : (examined p i s).phase.inHand = [] := by
  rw [examined_phase, hp]
  rfl

theorem addsNothing_goto_idle : AddsNothing s (s.goto .idle) :=
  ⟨State.stream_congr rfl rfl (by rw [hp]; rfl), rfl, rfl⟩

theorem addsNothing_halt (i : Instr) : AddsNothing s ((examined p i s).halt .bounds) :=
  ⟨(halt_stream (inHand_examined hp i) .bounds).trans (examined_stream p i s), examined_pktFwd p i s, rfl⟩

/-- A start of at least 1 leads to one end of the packet or to none (R192). -/
theorem handOver_examined {i : Instr} {start : Int} (hstart : 1 ≤ start) (h : handOver p start (examined p i s) = .next t) :
    AddsNothing s t ∨ ∃ n : Nat, 1 ≤ n ∧ n ≤ 188 ∧ AddsFrom p n s t ∧ (n : Int) = start := by
  by_cases hle : start ≤ 188
  · cases (handOver_inside (by omega) hle p _).symm.trans h
    have hadded : AddsFrom p start.toNat s (forwarded p start (examined p i s)) :=
      ⟨by rw [forwarded_stream (inHand_examined hp i), examined_stream],
        by simp only [forwarded, inc, examined_pktFwd, examined_params]⟩
    exact .inr ⟨start.toNat, by omega, by omega, hadded, by omega⟩
  · cases (handOver_outside (not_le.mp hle) p _).symm.trans h
    exact .inl (addsNothing_halt hp i)

end

/-! ## Behind the closed gate -/

theorem State.moved_delivered {s : State} {e : Env} {u : List Transfer} (hu : ∀ x ∈ u, x.isReset = false)
    (hnone : transactionsOf u = []) : (s.moved e u).delivered = s.delivered := by
  rw [s.delivered_append (s.moved_trace e u) hu, deliveredOf_eq_flatten, hnone]
  exact List.append_nil _

theorem transactionsOf_access {u : List Transfer} (hu : ∀ x ∈ u, x.isAccess = true) : transactionsOf u = [] :=
  List.filterMap_eq_nil_iff.mpr fun x hx => Transfer.transaction_of_isAccess (hu x hx)

theorem access_delivered (s : State) (e : Env) {u : List Transfer} (hu : ∀ x ∈ u, x.isAccess = true) :
    (s.moved e u).delivered = s.delivered :=
  State.moved_delivered (fun x hx => Transfer.isReset_of_isAccess (hu x hx)) (transactionsOf_access hu)

/-- What a step takes from its environment before the operation is no sink transaction (R66). -/
theorem Runs.no_transaction {s : State} {i : Instr} {e : Env} {u : List Transfer} (hr : Runs s i e u) :
    transactionsOf u = [] := by
  cases hr with
  | @reset _ x hx =>
    cases x with
    | sink => cases hx
    | _ => rfl
  | access _ _ hu => exact transactionsOf_access hu
  | _ => rfl

/-- Only at the sink does an operation complete a transaction. -/
theorem answered_of_no_sink {ph : Phase} (hph : ∀ caller bytes, ph ≠ .sink caller bytes) (i : Instr) :
    answered i ph = [] := by
  unfold answered
  split
  · exact absurd rfl (hph _ _)
  · exact absurd rfl (hph _ _)
  · rfl

/-- A transaction is outstanding only past the gate (R66, R183). -/
theorem Inv.no_sink_of_awaiting {s : State} (h : Inv s) (hawait : s.framer.fsm = .awaitingSync) (caller : Caller)
    (bytes : List Byte) : s.phase ≠ .sink caller bytes := by
  intro hp
  cases hawait.symm.trans (h.at_sink hp).1

/-- From `s` to `t` the run delivers nothing, and no transaction is outstanding at the end. -/
structure WritesNothing (s t : State) : Prop where
  delivered : t.delivered = s.delivered
  noSink : ∀ caller bytes, t.phase ≠ .sink caller bytes

theorem symbol_writesNothing {s t : State} {i : Instr} {e : Env} {w : BitVec 10} (hr : s.running = true)
    (hd : decodeSym w = .ok i) (he : exec i (s.moved e [.source w]) = .next t) : WritesNothing s t := by
  have hr' : (s.moved e [.source w]).running = true := hr
  have hdelivered : (s.moved e [.source w]).delivered = s.delivered := State.moved_delivered (by simp) rfl
  rcases decodeSym_cases hd with ⟨-, rfl⟩ | ⟨-, rfl⟩ | ⟨-, rfl⟩
  · obtain ⟨-, rfl⟩ := execSrcByte_next hr' he
    refine ⟨hdelivered, fun caller bytes => ?_⟩
    unfold byteTaken
    dsimp only
    split <;> simp
  · cases (execSrcEos_running hr').symm.trans he
    exact ⟨hdelivered, by simp⟩
  · cases (execSrcErr_running hr').symm.trans he
    exact ⟨hdelivered, by simp⟩

theorem window_writesNothing {s t : State} (he : exec (decodeWindow (windowHeader s.sync.win)) s = .next t) :
    WritesNothing s t := by
  unfold decodeWindow at he
  split at he
  case isTrue =>
    cases he
    exact ⟨rfl, by simp⟩
  case isFalse =>
    cases he
    have hslid : (s.enterResync.slideWindow.goto .idle).delivered = s.enterResync.delivered := by simp [State.delivered]
    exact ⟨hslid.trans (enterResync_delivered s), by simp⟩

theorem Extracts.phase_ne_sink {p : Packet} {u t : State} (h : Extracts p u t) (caller : Caller) (bytes : List Byte) :
    t.phase ≠ .sink caller bytes := by
  cases h <;> exact Phase.noConfusion

theorem packet_writesNothing {s t : State} {p : Packet} (he : exec (classify s.ctx p) s = .next t) : WritesNothing s t := by
  have hpacket := packetOf_classify s.ctx p
  refine ⟨(packet_keepsFrame hpacket he).delivered, ?_⟩
  rcases packetOf_cases hpacket with e | e | hchecked
  · rw [e] at he
    cases he
    exact fun _ _ => Phase.noConfusion
  · rw [e] at he
    cases he
    exact fun _ _ => Phase.noConfusion
  · exact (checkedClass_extracts hchecked he).phase_ne_sink

/-- Behind the closed gate the only places are those before the framer, and the end of the run, which in ETI-NI writes nothing
(R183, R219). -/
theorem Runs.writesNothing {s t : State} {i : Instr} {e : Env} {u : List Transfer} (hr : Runs s i e u) (h : Inv s)
    (hawait : s.framer.fsm = .awaitingSync) (hreset : i ≠ .hostReset) (he : exec i (s.moved e u) = .next t) :
    WritesNothing s t := by
  cases hr with
  | reset => exact absurd rfl hreset
  | access hp hi hu =>
    obtain ⟨v, rfl, hv⟩ := exec_access_outside_idle hi (by simp [hawait]) he
    exact ⟨(access_delivered _ _ hv).trans (access_delivered s _ hu), by simp [hp]⟩
  | symbol _ hrun hd => exact symbol_writesNothing hrun hd he
  | window =>
    rw [← s.eq_moved] at he
    exact window_writesNothing he
  | packet =>
    rw [← s.eq_moved] at he
    exact packet_writesNothing he
  | absorb hp => cases hawait.symm.trans (h.at_absorb hp).1
  | drain hp => cases hawait.symm.trans (h.at_drain hp).1
  | final =>
    rcases execFrmFinal_next he with ⟨hna, -⟩ | rfl
    · cases (h.awaitNi hawait).symm.trans hna
    · exact ⟨access_delivered s s.env (by simp), by simp⟩
  | answer hp => cases hawait.symm.trans (h.at_sink hp).1

/-- A step that answers no transaction adds none to the record: the bytes delivered by all runs stay (R66). -/
theorem step_deliveredOf {s t : State} (hsink : ∀ caller bytes, s.phase ≠ .sink caller bytes) (hstep : step s = .next t) :
    deliveredOf t.trace = deliveredOf s.trace := by
  have hgrows : Grows [] s t := by
    rcases step_cases hstep with ⟨e, u, rfl, -, -, hu⟩ | ⟨i, e, u, -, hr, he⟩
    · exact ⟨u, rfl, transactionsOf_access hu⟩
    · have hexec := exec_grows he
      rw [State.moved_phase, answered_of_no_sink hsink] at hexec
      exact Grows.trans ⟨u, rfl, hr.no_transaction⟩ hexec
  obtain ⟨v, hv, hnone⟩ := hgrows
  rw [hv, deliveredOf_append, deliveredOf_eq_flatten v, hnone]
  exact List.append_nil _

/-- Behind the closed gate a step is RESET or writes nothing (R183). -/
theorem step_behind_gate {s t : State} (h : Inv s) (hawait : s.framer.fsm = .awaitingSync) (hstep : step s = .next t) :
    (s.nextInstr = some .hostReset ∧ t.phase = .idle) ∨ WritesNothing s t := by
  rcases step_cases hstep with ⟨e, u, rfl, -, -, hu⟩ | ⟨i, e, u, hnext, hr, he⟩
  · exact .inr ⟨access_delivered s e hu, h.no_sink_of_awaiting hawait⟩
  · by_cases hreset : i = .hostReset
    · subst hreset
      cases he
      exact .inl ⟨hnext, rfl⟩
    · exact .inr (hr.writesNothing h hawait hreset he)

end Sys2Proof.Machine

open Sys2Proof Sys2Proof.Machine

/-- Settles O51: each class has its start, at least 1 under a legal offset, and hands over the packet from there or nothing. -/
theorem packetStepExtendsTheStream : Obligations.PacketStepExtendsTheStream := by
  intro s t p hinv hp hstep
  obtain ⟨-, hv, -⟩ := hinv.at_packet hp
  obtain ⟨hlow, -, -⟩ := hinv.offset_range
  have hnext := nextInstr_of_packet hp hv
  rw [step_of_packet hp hv] at hstep
  rcases classify_cases s.ctx p with e | e | e | pos | e | e
  · rw [e] at hstep
    cases hstep
    exact .inl (addsNothing_goto_idle hp)
  · rw [e] at hstep
    cases hstep
    exact .inl (addsNothing_goto_idle hp)
  · rw [e] at hstep hnext
    have hadds := handOver_examined hp (i := .pktFwdTei p) (start := teiStart) (by decide) hstep
    exact hadds.imp_right fun ⟨n, h1, h188, ⟨hstream, hcount⟩, hn⟩ =>
      ⟨n, h1, h188, hstream, hcount, .inl ⟨hnext, Int.ofNat.inj hn⟩⟩
  · have hnonneg : 0 ≤ s.sel.offset.toInt := offset_nonneg_of_classify pos
    have hfour := four_le_payloadOffset s.params p
    have hstart : 1 ≤ posStart s p := by unfold posStart; omega
    rw [pos] at hstep hnext
    exact (handOver_examined hp (i := .pktFwdPos p) hstart hstep).imp_right fun ⟨n, h1, h188, ⟨hstream, hcount⟩, hn⟩ =>
      ⟨n, h1, h188, hstream, hcount, .inr (.inl ⟨hnext, hn⟩)⟩
  · have hstart : 1 ≤ negStart s := by simp only [negStart, hdrSize]; omega
    rw [e] at hstep hnext
    exact (handOver_examined hp (i := .pktFwdNeg p) hstart hstep).imp_right fun ⟨n, h1, h188, ⟨hstream, hcount⟩, hn⟩ =>
      ⟨n, h1, h188, hstream, hcount, .inr (.inr ⟨hnext, hn⟩)⟩
  · rw [e] at hstep
    cases hstep
    exact .inl (addsNothing_halt hp (.pktBounds p))

/-- Settles O55: behind the gate a step is RESET or writes nothing, and a span is handed over only past the gate. -/
theorem closedGateWritesNothing : Obligations.ClosedGateWritesNothing := by
  intro s t hinv hawait hstep
  have hstays : t.framer.fsm = .awaitingSync → ∀ span, t.phase ≠ .absorb span := by
    intro ht span hp
    cases ht.symm.trans ((hinv.step hstep).at_absorb hp).1
  refine ⟨step_deliveredOf (hinv.no_sink_of_awaiting hawait) hstep, ?_⟩
  rcases step_behind_gate hinv hawait hstep with ⟨hnext, hidle⟩ | ⟨hdelivered, hsink⟩
  · exact ⟨fun hno => absurd hnext hno, by simp [hidle], hstays⟩
  · exact ⟨fun _ => hdelivered, hsink, hstays⟩

end

section
/-! PROOFS. The framer's operations where their bytes fit in BUF (R212, R213, R217, R219), and every transition of FSM with its
condition (R222). -/

namespace Sys2Proof.Machine

/-! ## Bytes of a range -/

theorem Memory.read_writeN_inside {m : Memory} (h : m.wf = true) (a : Nat) (bs : List Byte) {i : Nat}
    (hi : i < bs.length) : (m.writeN a bs).read (a + i) = bs.getD i 0 := by
  rw [Memory.read_writeN h, if_pos (by omega), Nat.add_sub_cancel_left]

theorem Memory.readN_front_getD (m : Memory) {n i : Nat} (hi : i < n) : (m.readN 0 n).getD i 0 = m.read i := by
  rw [Memory.readN_getD m 0 n i hi, Nat.zero_add]

/-! ## The operations where their bytes fit -/

/-- The surplus behind a chunk lies inside BUF, so the shift never faults (R213, R215). -/
theorem shiftChunk_eq {s : State} (hdue : s.params.chunkSize ≤ s.framer.bufLen) (hcap : s.framer.bufLen ≤ s.params.bufCap) :
    shiftChunk s = .next (refilled
      (s.framer.buf.writeN 0 (s.framer.buf.readN s.params.chunkSize (s.framer.bufLen - s.params.chunkSize)))
      (s.framer.bufLen - s.params.chunkSize) s) := by
  obtain ⟨t, ht⟩ := shiftChunk_progress hdue hcap
  rw [ht, shiftChunk_next ht]

/-- With bytes buffered in ETI-NA the clean end begins a last transaction of them (R219). -/
theorem execFrmFinal_buffered (cause : CleanCause) {s : State} (hna : s.sel.mode = .na) (hpos : 0 < s.framer.bufLen)
    (hcap : s.framer.bufLen ≤ s.params.bufCap) :
    execFrmFinal cause s = .next (s.sinkWrite (.final cause) (s.framer.buf.readN 0 s.framer.bufLen)) := by
  have hread : memRead .buf 0 s.framer.bufLen s = some (s.framer.buf.readN 0 s.framer.bufLen) :=
    memRead_eq_some.mpr ⟨by simpa only [Space.size, Nat.zero_add] using hcap, rfl⟩
  rw [execFrmFinal, if_pos ⟨hna, hpos⟩, hread]

/-- In ETI-NI, and with nothing buffered, the clean end is the halt (R219). -/
theorem execFrmFinal_unbuffered (cause : CleanCause) {s : State} (h : s.sel.mode = .ni ∨ s.framer.bufLen = 0) :
    execFrmFinal cause s = .next (s.halt (cleanHalt cause)) := by
  refine if_neg fun ⟨hna, hpos⟩ => ?_
  rcases h with hni | hempty
  · cases hna.symm.trans hni
  · exact hpos.ne' hempty

/-! ## How an operation may move FSM -/

/-- The transitions of FSM that the operation `i` may make from `s` to `t`, each with its condition (R222). -/
inductive FsmMove (s : State) (i : Instr) (t : State) : Prop
  | kept (hfsm : t.framer.fsm = s.framer.fsm)
  | reset (hi : i = .hostReset) (hfsm : t.framer.fsm = .idle)
  | accepted (hi : i = .hostStart) (hidle : s.framer.fsm = .idle) (hlegal : s.cfg.legal)
      (hfsm : t.framer.fsm = if s.cfg.mode = .ni then .awaitingSync else .streaming)
  | rejected (hi : i = .hostStart) (hidle : s.framer.fsm = .idle) (hillegal : ¬ s.cfg.legal) (hfsm : t.framer.fsm = .halted)
      (hcause : t.status.haltCause = .cfgError)
  | opened {p : Packet} (hi : i = .pktFwdPos p) (hawait : s.framer.fsm = .awaitingSync) (hstart : p.unitStart = true)
      (htei : p.transportError = false) (hfsm : t.framer.fsm = .streaming)
  | ended {cause : CleanCause} (hi : i ≠ .snkFail)
      (hplace : s.phase = .final cause ∨ ∃ bytes, s.phase = .sink (.final cause) bytes ∧ s.framer.fsm = .streaming)
      (hfsm : t.framer.fsm = .halted) (hcause : t.status.haltCause = cleanHalt cause)
  | failed (hi : i = .snkFail) (hstreaming : s.framer.fsm = .streaming) (hfsm : t.framer.fsm = .halted)
      (hcause : t.status.haltCause = .writeFail)
  | bounds {p : Packet} (hi : i = .pktBounds p) (hfsm : t.framer.fsm = .halted) (hcause : t.status.haltCause = .bounds)

section
variable {s t : State}

/-! ## The host's accesses -/

theorem writeCfg_framer {c : CfgState} (he : writeCfg c s = .next t) : t.framer = s.framer := by
  unfold writeCfg at he
  split at he
  all_goals
    cases he
    rfl

/-- Of the accesses START alone moves FSM, and only from IDLE (R123). -/
theorem access_fsmMove {i : Instr} (hi : IsAccess i) (he : exec i s = .next t) : FsmMove s i t := by
  have hwrite {c : CfgState} (hc : writeCfg c s = .next t) : FsmMove s i t :=
    .kept (congrArg FramerState.fsm (writeCfg_framer hc))
  rcases hi with rfl | ⟨w, rfl⟩ | ⟨w, rfl⟩ | ⟨w, rfl⟩ | ⟨addr, rfl⟩
  · by_cases hidle : s.framer.fsm = .idle
    · by_cases hlegal : s.cfg.legal
      · cases (exec_hostStart_legal hidle hlegal).symm.trans he
        exact .accepted rfl hidle hlegal (startAccepted_fsm s)
      · cases (exec_hostStart_illegal hidle hlegal).symm.trans he
        exact .rejected rfl hidle hlegal rfl rfl
    · obtain ⟨u, rfl, -⟩ := exec_access_outside_idle (.inl rfl) hidle he
      exact .kept rfl
  · exact hwrite he
  · exact hwrite he
  · exact hwrite he
  · cases he
    exact .kept rfl

/-! ## Source symbols and the window -/

theorem symbol_framer {i : Instr} {w : BitVec 10} (hr : s.running = true) (hd : decodeSym w = .ok i)
    (he : exec i s = .next t) : t.framer = s.framer := by
  rcases decodeSym_cases hd with ⟨-, rfl⟩ | ⟨-, rfl⟩ | ⟨-, rfl⟩
  · obtain ⟨-, rfl⟩ := execSrcByte_next hr he
    rfl
  · cases (execSrcEos_running hr).symm.trans he
    rfl
  · cases (execSrcErr_running hr).symm.trans he
    rfl

theorem window_framer (he : exec (decodeWindow (windowHeader s.sync.win)) s = .next t) : t.framer = s.framer := by
  unfold decodeWindow at he
  split at he
  · cases he
    rfl
  · cases he
    simp

/-! ## Packets -/

theorem examined_framer (p : Packet) (i : Instr) (s : State) : (examined p i s).framer = (s.openGate p).framer := by
  rcases examined_cases p i s with e | e <;> simp [e]

/-- Forwarding from a start inside the packet leaves FSM where the gate has put it (R183, R192). -/
theorem handOver_inside_framer {p : Packet} {i : Instr} {start : Int} (h0 : 0 ≤ start) (h188 : start ≤ 188)
    (he : handOver p start (examined p i s) = .next t) : t.framer = (s.openGate p).framer := by
  cases (handOver_inside h0 h188 p _).symm.trans he
  exact examined_framer p i s

/-- PKT.FWD_POS alone opens the gate and goes on: a transport error leaves it closed, a negative offset never meets it, and
PKT.BOUNDS ends the run (R183, R193). -/
theorem packet_fsmMove {p : Packet} (h : Inv s) (he : exec (classify s.ctx p) s = .next t) :
    FsmMove s (classify s.ctx p) t := by
  obtain ⟨hlow, hhigh, hfixed⟩ := h.offset_range
  obtain ⟨-, -, hnegStart, hposStart, -⟩ := payloadStartRange s p hlow hhigh
  have hselected := classify_selectedBy s.ctx p
  rcases classify_cases s.ctx p with hclass | hclass | hclass | hclass | hclass | hclass
  all_goals rw [hclass] at he hselected ⊢
  · cases he
    exact .kept rfl
  · cases he
    exact .kept rfl
  · obtain ⟨-, -, htei⟩ := hselected
    have hframer := handOver_inside_framer (i := .pktFwdTei p) (start := teiStart) (by decide) (by decide) he
    rw [openGate_of_transportError htei] at hframer
    exact .kept (congrArg FramerState.fsm hframer)
  · obtain ⟨-, -, htei, hnonneg, hle⟩ := hselected
    have hfour := hposStart hnonneg
    have hframer := handOver_inside_framer (i := .pktFwdPos p) (by omega) hle he
    rcases openGate_cases p s with ⟨⟨-, hawait, hq⟩, e⟩ | ⟨-, e⟩
    · exact .opened rfl hawait (Bool.and_eq_true_iff.mp hq).1 htei (by rw [hframer, e])
    · exact .kept (by rw [hframer, e])
  · obtain ⟨-, -, -, hneg⟩ := hselected
    obtain ⟨hone, hthree⟩ := hnegStart hneg
    have hframer := handOver_inside_framer (i := .pktFwdNeg p) (by omega) (by omega) he
    rcases openGate_cases p s with ⟨⟨hni, -⟩, -⟩ | ⟨-, e⟩
    · exact absurd hneg (by simp [State.ctx, hfixed hni])
    · exact .kept (by rw [hframer, e])
  · cases he
    exact .bounds rfl rfl rfl

/-! ## The framer and the sink -/

theorem absorb_fsm {span : List Byte} (he : exec (decodeFramer s.sel.mode (.absorb span)) s = .next t) :
    t.framer.fsm = s.framer.fsm := by
  cases hmode : s.sel.mode with
  | na =>
    rw [hmode] at he
    obtain ⟨-, rfl⟩ := execFrmNaAppend_next he
    rfl
  | ni =>
    rw [hmode] at he
    rcases execFrmNiWrite_next he with ⟨-, rfl⟩ | ⟨-, rfl⟩ <;> rfl

theorem final_fsmMove {cause : CleanCause} (hp : s.phase = .final cause) (he : exec (.frmFinal cause) s = .next t) :
    FsmMove s (.frmFinal cause) t := by
  rcases execFrmFinal_next he with ⟨-, -, rfl⟩ | rfl
  · exact .kept rfl
  · exact .ended nofun (.inl hp) rfl rfl

/-- An OK ends the run for the last transaction alone, a FAIL for every caller (R66). -/
theorem answer_fsmMove {caller : Caller} {bytes : List Byte} {v : BitVec 1} (h : Inv s) (hp : s.phase = .sink caller bytes)
    (he : exec (decodeRsp v) s = .next t) : FsmMove s (decodeRsp v) t := by
  obtain ⟨hstreaming, -⟩ := h.at_sink hp
  unfold decodeRsp at he ⊢
  split_ifs at he ⊢
  · rw [execSnkOk_sink hp] at he
    cases caller with
    | naFlush =>
      cases shiftChunk_next he
      exact .kept rfl
    | niWrite =>
      cases he
      exact .kept rfl
    | final cause =>
      cases he
      exact .ended nofun (.inr ⟨bytes, hp, hstreaming⟩) rfl rfl
  · cases (execSnkFail_sink hp).symm.trans he
    exact .failed rfl hstreaming rfl rfl

/-! ## Every operation of a step -/

theorem Runs.fsmMove {i : Instr} {e : Env} {u : List Transfer} (hr : Runs s i e u) (h : Inv s)
    (he : exec i (s.moved e u) = .next t) : FsmMove (s.moved e u) i t := by
  have hm := h.moved e u
  cases hr with
  | reset =>
    cases he
    exact .reset rfl rfl
  | access _ hi _ => exact access_fsmMove hi he
  | symbol _ hrun hd => exact .kept (congrArg FramerState.fsm (symbol_framer hrun hd he))
  | window => exact .kept (congrArg FramerState.fsm (window_framer he))
  | packet => exact packet_fsmMove hm he
  | absorb => exact .kept (absorb_fsm he)
  | drain =>
    cases (execFrmNaFlush_eq _).symm.trans he
    exact .kept rfl
  | final hp => exact final_fsmMove hp he
  | answer hp => exact answer_fsmMove hm hp he

end

end Sys2Proof.Machine

open Sys2Proof Sys2Proof.Machine

/-- Settles O54, by the operation the step runs. -/
theorem fsmTransitions : Obligations.FsmTransitions := by
  intro s t hinv hstep hmoved
  rcases step_cases hstep with ⟨e, u, rfl, -⟩ | ⟨i, e, u, hnext, hr, he⟩
  · exact absurd rfl hmoved
  · cases hr.fsmMove hinv he with
    | kept hfsm => exact absurd hfsm hmoved
    | reset hi hfsm => exact .inl ⟨hi ▸ hnext, hfsm⟩
    | accepted hi hidle hlegal hfsm =>
      cases hmode : s.cfg.mode with
      | na => exact .inr (.inl ⟨hidle, hi ▸ hnext, hlegal, rfl, hfsm.trans (if_neg (by simp [hmode]))⟩)
      | ni => exact .inr (.inr (.inl ⟨hidle, hi ▸ hnext, hlegal, rfl, hfsm.trans (if_pos hmode)⟩))
    | rejected hi hidle hillegal hfsm hcause =>
      exact .inr (.inr (.inr (.inl ⟨hidle, hi ▸ hnext, hillegal, hfsm, hcause⟩)))
    | opened hi hawait hstart htei hfsm =>
      exact .inr (.inr (.inr (.inr (.inl ⟨hawait, hfsm, _, hi ▸ hnext, hstart, htei⟩))))
    | ended hi hplace hfsm hcause =>
      have hno : s.nextInstr ≠ some .snkFail := fun hfail => hi (Option.some_inj.mp (hnext.symm.trans hfail))
      exact .inr (.inr (.inr (.inr (.inr (.inl ⟨hfsm, _, hplace, hcause, hno⟩)))))
    | failed hi hstreaming hfsm hcause =>
      exact .inr (.inr (.inr (.inr (.inr (.inr (.inl ⟨hstreaming, hi ▸ hnext, hfsm, hcause⟩))))))
    | bounds hi hfsm hcause =>
      exact .inr (.inr (.inr (.inr (.inr (.inr (.inr ⟨hfsm, hcause, _, hi ▸ hnext⟩))))))

/-- Settles O34: the bytes written are read back in their range, and outside it BUF reads as before. -/
theorem appendGoesBehindTheBufferedBytes : Obligations.AppendGoesBehindTheBufferedBytes := by
  intro s span hwf hfit
  exact ⟨_, execFrmNaAppend_eq hfit, rfl, fun i hi => Memory.read_writeN_inside hwf _ _ hi,
    fun a ha => Memory.read_writeN_outside hwf _ _ ha, Memory.wf_writeN hwf _ _, rfl, rfl, rfl⟩

/-- Settles O36: the surplus is a range read behind the chunk and written at the front. -/
theorem answeredFlushShiftsTheSurplus : Obligations.AnsweredFlushShiftsTheSurplus := by
  intro s bytes hp hwf hdue hcap
  have hshift := shiftChunk_eq (s := written bytes s) hdue hcap
  refine ⟨_, (execSnkOk_sink hp).trans hshift, rfl, fun i hi => ?front, fun a ha => ?behind, rfl, rfl, rfl⟩
  case front =>
    have hread := Memory.read_writeN_inside hwf 0
      (s.framer.buf.readN s.params.chunkSize (s.framer.bufLen - s.params.chunkSize)) (i := i) (by simpa using hi)
    rw [Nat.zero_add] at hread
    exact hread.trans (Memory.readN_getD _ _ _ i hi)
  case behind => exact Memory.read_writeN_outside hwf 0 _ (.inr (by rw [Memory.readN_length, Nat.zero_add]; exact ha))

/-- Settles O35: CHUNK_SIZE bytes lie inside BUF, and the transaction is the range of them. -/
theorem flushPresentsTheOldestChunk : Obligations.FlushPresentsTheOldestChunk := fun s =>
  ⟨_, execFrmNaFlush_eq s, Memory.readN_length _ _ _, fun _ hi => Memory.readN_front_getD _ hi⟩

/-- Settles O37: the operation tests for the empty span, and an ETI-NI caller only ends its operation on an OK. -/
theorem niSpanIsOneTransaction : Obligations.NiSpanIsOneTransaction := fun _ _ =>
  ⟨fun hempty => if_pos hempty, fun hne => if_neg hne, fun hp => execSnkOk_sink hp⟩

/-- Settles O38, by the test of R219, and then by the answer to the last transaction. -/
theorem finalFlushAtACleanEnd : Obligations.FinalFlushAtACleanEnd := by
  intro s cause
  refine ⟨fun hna hpos hcap => ?flush, fun hnone => ?halt, fun bytes hp => ?answered⟩
  case flush =>
    exact ⟨_, execFrmFinal_buffered cause hna hpos hcap, Memory.readN_length _ _ _,
      fun _ hi => Memory.readN_front_getD _ hi⟩
  case halt => exact execFrmFinal_unbuffered cause hnone
  case answered => exact execSnkOk_sink hp

end

section
/-! PROOFS. The host operations on the configuration outside IDLE (R38, R123, R280). -/

namespace Sys2Proof.Machine

theorem writeCfg_ignored {s : State} (hbusy : s.framer.fsm ≠ .idle) (c : CfgState) : writeCfg c s = .next s :=
  if_neg hbusy

theorem execHostStart_ignored {s : State} (hbusy : s.framer.fsm ≠ .idle) : execHostStart s = .next s :=
  if_neg hbusy

end Sys2Proof.Machine

open Sys2Proof Sys2Proof.Machine

/-- Settles O4: the three configuration writes are one guarded operation, and START has the same guard. -/
theorem configurationWritesAndStartIgnoredOutsideIdle :
    Obligations.ConfigurationWritesAndStartIgnoredOutsideIdle := by
  intro s w hbusy
  refine ⟨?pid, ?offset, ?ctrl, ?start⟩
  case pid => exact writeCfg_ignored hbusy { s.cfg with pid := low16 w }
  case offset => exact writeCfg_ignored hbusy { s.cfg with offset := low16 w }
  case ctrl => exact writeCfg_ignored hbusy { s.cfg with mode := ctrlMode w, ofsExpl := ctrlExplicit w }
  case start => exact execHostStart_ignored hbusy

end
